-- ==== Sys2Proof/Syntax.lean ====
section
/-! DEFINITION. The core's instructions: its commands (30_encoding.md R90, R91; spec/opcode_table.json). -/

namespace Sys2Proof

/-- One constructor per row of spec/opcode_table.json. A command has no operand fields (30_encoding.md R93). -/
inductive Instr where
  /-- SCHEDULE, 0x00000001 (41_key_schedule.md R130). -/
  | schedule
  /-- ENCRYPT, 0x00000002 (42_encrypt.md R150). -/
  | encrypt
  /-- DECRYPT, 0x00000003 (43_decrypt.md R165). -/
  | decrypt
  deriving DecidableEq, Repr

end Sys2Proof
end

