-- ==== Sys2Proof/Word.lean ====
section
/-! DEFINITION. The widths of the core's data: bytes, bus words, aperture offsets, cipher Words, stored Words. -/

namespace Sys2Proof

/-- One byte of a window, of key material or of a block. -/
abbrev Byte := BitVec 8

/-- The 32 bits of one host transaction (20_memory.md R63). -/
abbrev BusWord := BitVec 32

/-- A byte offset in the 512-byte aperture (20_memory.md R60, R61). -/
abbrev Offset := BitVec 9

/-- A cipher Word of a build of width `w` (00_scope.md R5, R10). -/
abbrev Word (w : Nat) := BitVec w

/-- The container that holds one cipher Word in State, whatever the build's width is.
DESIGN CHOICE (log 4): a build of width W uses bits W-1:0 and the bits above are 0; safe. -/
abbrev Stored := BitVec 64

end Sys2Proof
end

