-- ==== Sys2Proof/Decode.lean ====
section
/-! DEFINITION. Command words (30_encoding.md R90 to R92): the fields, the decoder, the encoder, and the numbering of
spec/opcode_table.json. -/

namespace Sys2Proof

/-- Why a command word is ILLEGAL (30_encoding.md R92), or why bytes hold no command word. -/
inductive Illegal where
  /-- RSV is not 0. -/
  | reservedField
  /-- RSV = 0 and OP is 0x0 or 0x4 to 0xF. -/
  | reservedOpcode
  /-- Fewer than the four bytes of a command word (R90: one length, 32 bits). -/
  | truncated
  deriving DecidableEq, Repr

/-- OP, bits 3:0 (30_encoding.md R90). -/
def opField (w : BusWord) : BitVec 4 := w.extractLsb' 0 4

/-- RSV, bits 31:4 (30_encoding.md R90). -/
def rsvField (w : BusWord) : BitVec 28 := w.extractLsb' 4 28

/-- The opcode map (30_encoding.md R91). -/
def opcodeMap (op : BitVec 4) : Option Instr :=
  if op = 0x1#4 then some .schedule
  else if op = 0x2#4 then some .encrypt
  else if op = 0x3#4 then some .decrypt
  else none

/-- Decoding a command word: total, in every state the same (30_encoding.md R91, R92, R95). -/
def decode (w : BusWord) : Except Illegal Instr :=
  if rsvField w = 0#28 then
    match opcodeMap (opField w) with
    | some i => .ok i
    | none => .error .reservedOpcode
  else .error .reservedField

/-- The command word in the four bytes at the CMD register, little-endian lanes (20_memory.md R66), with the bytes
after it. -/
def decodeBytes : List Byte → Except Illegal (Instr × List Byte)
  | b0 :: b1 :: b2 :: b3 :: rest =>
    match decode (b3 ++ b2 ++ b1 ++ b0) with
    | .ok i => .ok (i, rest)
    | .error e => .error e
  | _ => .error .truncated

/-- OP of a command (30_encoding.md R91). -/
def opcode : Instr → BitVec 4
  | .schedule => 0x1#4
  | .encrypt => 0x2#4
  | .decrypt => 0x3#4

/-- The command word of a command: RSV = 0 above OP (30_encoding.md R90, R91). -/
def encode (i : Instr) : BusWord := 0#28 ++ opcode i

/-- The bytes of a bus word in its lanes, lowest offset first (20_memory.md R66). -/
def laneBytes (v : BusWord) : List Byte :=
  [v.extractLsb' 0 8, v.extractLsb' 8 8, v.extractLsb' 16 8, v.extractLsb' 24 8]

/-- The bytes of a command in its lanes. -/
def encodeBytes (i : Instr) : List Byte := laneBytes (encode i)

/-- The 32-bit command word that the low `nbits` bits of `w` stand for, bits above them 0. -/
def tableWord (nbits w : Nat) : BusWord := BitVec.ofNat 32 (w % 2 ^ nbits)

/-- What the decoder reads from a word numbered as spec/opcode_table.json numbers it: the word laid out in its byte
lanes and decoded. -/
def decodeTableWord (nbits w : Nat) : Option Instr :=
  match decodeBytes (laneBytes (tableWord nbits w)) with
  | .ok (i, _) => some i
  | .error _ => none

end Sys2Proof
end

