-- ==== Sys2Proof/Config.lean ====
section
/-! DEFINITION. What a build of the core fixes (00_scope.md R5 to R9), and the values the spec leaves open
(93_implementation_defined.md section 2), as constants with no body. -/

namespace Sys2Proof

/-- The word widths a build may have (00_scope.md R5). No other width has a constructor: a build with another
width produces no core (60_exceptions.md R203). -/
inductive Width where
  | w8 | w16 | w32 | w64
  deriving DecidableEq, Repr

/-- W in bits. -/
def Width.bits : Width → Nat
  | .w8 => 8 | .w16 => 16 | .w32 => 32 | .w64 => 64

/-- The build parameters of one core instance, legal by construction. -/
structure Build where
  /-- W (00_scope.md R5). -/
  W : Width
  /-- R_MAX, 0 to 255 (00_scope.md R6). -/
  rMax : BitVec 8
  /-- B_MAX = 8 * (bUnits + 1): the multiples of 8 in 8 to 256 (00_scope.md R7). -/
  bUnits : Fin 32
  deriving DecidableEq, Repr

namespace Build

/-- The default and reference build: W = 32, R_MAX = 20, B_MAX = 256 (00_scope.md R5 to R7). -/
def default : Build := ⟨.w32, 20#8, 31⟩

/-- W as a number of bits. -/
abbrev bits (b : Build) : Nat := b.W.bits

/-- B_MAX in bytes (00_scope.md R7). -/
def bMax (b : Build) : Nat := 8 * (b.bUnits.val + 1)

/-- u = W / 8, bytes per Word (00_scope.md R9). -/
def u (b : Build) : Nat := b.bits / 8

/-- BLK_BYTES = 4u (00_scope.md R9). -/
def blkBytes (b : Build) : Nat := 4 * b.u

/-- C_MAX = B_MAX / u (00_scope.md R9). -/
def cMax (b : Build) : Nat := b.bMax / b.u

/-- c = ceil(n / u), the number of key Words of an n-byte key (00_scope.md R9). -/
def keyWords (b : Build) (n : Nat) : Nat := (n + b.u - 1) / b.u

/-- The number of Words of the round-key table storage, 2*R_MAX+4 (00_scope.md R6). -/
def tableWords (b : Build) : Nat := 2 * b.rMax.toNat + 4

/-- The width a parameter value names, if it is one of the four (00_scope.md R5). -/
def widthOf : Nat → Option Width
  | 8 => some .w8 | 16 => some .w16 | 32 => some .w32 | 64 => some .w64 | _ => none

/-- Elaborating a build: a core for legal parameters, no core otherwise (00_scope.md R5 to R7,
60_exceptions.md R203). -/
def elaborate (w rMax bMax : Nat) : Option Build :=
  match widthOf w with
  | none => none
  | some W =>
    if h : rMax ≤ 255 ∧ bMax % 8 = 0 ∧ 8 ≤ bMax ∧ bMax ≤ 256 then
      some ⟨W, BitVec.ofNat 8 rMax, ⟨bMax / 8 - 1, by omega⟩⟩
    else none

end Build

/-- T = 2R+4, the number of entries of the RoundKeyTable of a context of R rounds (00_scope.md R9). -/
def tableLen (R : Nat) : Nat := 2 * R + 4

namespace Config

/-- V1, V2: what an entry of S holds when no rule gives it a value, by draw and index. No body: log 3. -/
opaque freeS (draw index : Nat) : Stored

/-- V1, V3: what an entry of L holds when no rule gives it a value, by draw and index. No body: log 3. -/
opaque freeL (draw index : Nat) : Stored

/-- V4: what a working register of W bits holds while no operation of its runs, by draw and register. No body: log 3. -/
opaque freeReg (draw register : Nat) : Stored

/-- V4: what a loop counter or index holds while no operation of its runs, by draw and counter. No body: log 3. -/
opaque freeCount (draw counter : Nat) : Nat

/-- V5: what SNAP_R and SNAP_B hold while IDLE, by draw. No body: log 3. -/
opaque freeSnap (draw : Nat) : BitVec 24

/-- V5: what a byte of SNAP_BLK holds while IDLE, by draw and index. No body: log 3. -/
opaque freeByte (draw index : Nat) : Byte

/-- P5: where the platform puts the aperture, in units of 512 bytes (20_memory.md R60). No rule depends on it: log 17. -/
opaque base512 : Nat

end Config

end Sys2Proof
end

