-- ==== Sys2Proof/HostSyntax.lean ====
section
/-! DEFINITION. What a bus master can do to the core: transactions (20_memory.md R61 to R63), responses, the lines
of a host script (30_encoding.md R96) and its pseudo-instructions (R97, R98). -/

namespace Sys2Proof

/-- The sizes of a read a platform bus may express (20_memory.md R63). DESIGN CHOICE (log 11): the spec names the
32-bit size and says only that narrower ones may exist. -/
inductive ReadSize where
  | byte | half | word
  deriving DecidableEq, Repr

/-- A host transaction (20_memory.md R61). A write carries its four byte strobes (R63). -/
inductive Txn where
  | read (addr : Offset) (size : ReadSize)
  | write (addr : Offset) (strobes : BitVec 4) (data : BusWord)
  deriving DecidableEq, Repr

namespace Txn

/-- `MemRead(addr, 4)`. -/
def memRead (addr : Offset) : Txn := .read addr .word

/-- `MemWrite(addr, 4, v)`. -/
def memWrite (addr : Offset) (v : BusWord) : Txn := .write addr 0b1111#4 v

end Txn

/-- The response to a transaction (20_memory.md R61). A bus error returns no data (log 10). -/
inductive Response where
  | okRead (data : BusWord)
  | okWrite
  | err
  deriving DecidableEq, Repr

/-- One line of a host script (30_encoding.md R96). -/
inductive Line where
  /-- `WR off, data` -/
  | wr (off : Offset) (data : BusWord)
  /-- `WRE off, data` -/
  | wre (off : Offset) (data : BusWord)
  /-- `RD off` -/
  | rd (off : Offset)
  /-- `RD off => data` -/
  | rdExpect (off : Offset) (data : BusWord)
  /-- `RDE off` -/
  | rde (off : Offset)
  /-- `POLL off, mask, val` -/
  | poll (off : Offset) (mask val : BusWord)
  /-- Any transaction the platform's bus can express, its response unchecked: the model's own line, for the narrow
  accesses of 20_memory.md R63, which R96 has no notation for (log 11). -/
  | raw (t : Txn)
  deriving DecidableEq, Repr

/-- The pseudo-instructions of 30_encoding.md R97 and the synonym `GO n` of R98. -/
inductive Pseudo where
  /-- `CFG r, b`. R97 bounds neither operand; DESIGN CHOICE (log 20): r has the 8 bits of CONFIG.ROUNDS and b the 16 bits
  of CONFIG.KEYLEN. -/
  | cfg (r : BitVec 8) (b : BitVec 16)
  | key (bytes : List Byte)
  | blk (bytes : List Byte)
  | cmd (i : Instr)
  | wait
  | rdblk (bytes : List Byte)
  | clr
  | go (n : BusWord)
  deriving DecidableEq, Repr

end Sys2Proof
end

