-- ==== Sys2Proof/Machine/State.lean ====
section
/-! DEFINITION. The core's state as plain data (10_state.md R20 to R43), the bus masters around it, and its reset value. -/

namespace Sys2Proof.Machine

open Sys2Proof

/-- The sequencer's phase (10_state.md R24). -/
inductive Phase where
  | idle | sched | enc | dec
  deriving DecidableEq, Repr

/-- The codes STATUS.ERRCODE may hold (60_exceptions.md R200); 8 to 15 are reserved and never reported. -/
inductive ErrorCode where
  | none | invalidKey | invalidWordWidth | invalidBlockLength | keyTooLong | invalidRounds | noKey | illegalCommand
  deriving DecidableEq, Repr

/-- A sparse byte memory: (aperture offset, byte) pairs with strictly rising offsets, none of them the byte an unlisted
offset reads as. -/
abbrev Memory := List Host.Cell

/-- The block working registers (10_state.md R22) and the round index (R25). Scratch: V4. -/
structure BlockRegs where
  A : Stored
  B : Stored
  C : Stored
  D : Stored
  t : Stored
  u : Stored
  i : Nat
  deriving DecidableEq, Repr

/-- The key-schedule registers (10_state.md R23). Scratch: V4. -/
structure KeyRegs where
  KA : Stored
  KB : Stored
  KI : Nat
  KJ : Nat
  iter : Nat
  deriving DecidableEq, Repr

/-- A bus master: its remaining script, the response to its last transaction, and whether a line's check has failed
(30_encoding.md R96). -/
structure Master where
  script : List Line
  last : Option Response
  failed : Bool
  deriving DecidableEq, Repr

/-- Who moves next (10_state.md R20): bus master m, the sequencer, or the reset pin at a clock edge. -/
inductive Turn where
  | host (m : Nat)
  | sequencer
  /-- `rst_n` is sampled 0 (70_reset_and_hazards.md R230). -/
  | resetLow
  /-- `rst_n` is sampled 1. -/
  | resetHigh
  deriving DecidableEq, Repr

/-- Everything the spec gives the machine, and the model's own fields `masters`, `turns` and `draws`. -/
structure State where
  /-- The build's constants, shown by PARAM (10_state.md R35). -/
  build : Build
  phase : Phase
  /-- KEY_VALID, CTX_R, CTX_B (10_state.md R27). -/
  keyValid : Bool
  ctxR : BitVec 8
  ctxB : BitVec 16
  /-- The round-key table storage (10_state.md R28) and the key-word storage (R29). -/
  S : List Stored
  L : List Stored
  /-- The start snapshot SNAP_R, SNAP_B, SNAP_BLK (10_state.md R30). -/
  snapR : BitVec 8
  snapB : BitVec 16
  snapBlk : List Byte
  blockRegs : BlockRegs
  keyRegs : KeyRegs
  /-- CONFIG.ROUNDS, CONFIG.KEYLEN (10_state.md R32). -/
  rounds : BitVec 8
  keylen : BitVec 16
  /-- STATUS.DONE, ERR, ERRCODE, REJECTED, LAST_OP (10_state.md R36). -/
  done : Bool
  err : Bool
  errcode : ErrorCode
  rejected : Bool
  lastOp : BitVec 4
  /-- IRQ_EN.DONE_IE, ERR_IE, REJ_IE (10_state.md R37). -/
  doneIe : Bool
  errIe : Bool
  rejIe : Bool
  /-- DINBUF, DOUTBUF, KEYBUF (10_state.md R39 to R41), by aperture offset. -/
  mem : Memory
  /-- `rst_n` at the last clock edge (70_reset_and_hazards.md R230). -/
  rstN : Bool
  /-- The bus masters (20_memory.md R76). The model's own field: log 8. -/
  masters : List Master
  /-- The order in which the agents move. The model's own field: log 6. -/
  turns : List Turn
  /-- The number of the next draw of unspecified values. The model's own field: log 3. -/
  draws : Nat
  deriving DecidableEq, Repr

/-- Why the machine stops. -/
inductive Fault where
  /-- Raised by a bus master's turn while `rst_n` = 0: the spec gives such a transaction no defined response and a
  model no such step (70_reset_and_hazards.md R230; 93_implementation_defined.md S1). Safe: log 12. -/
  | transactionDuringReset
  deriving DecidableEq, Repr

/-- Why an instruction has no meaning. -/
inductive Refusal where
  /-- Raised by `exec` for an instruction that has no meaning yet; no arm raises it. Safe. -/
  | notModelled (mnemonic : String)
  deriving DecidableEq, Repr

/-- CONFIG.ROUNDS after reset: min(20, R_MAX) (10_state.md R32). -/
def resetRounds (b : Build) : BitVec 8 := if b.rMax.toNat < 20 then b.rMax else 20#8

/-- A build right after reset (10_state.md R22 to R41; 70_reset_and_hazards.md R230, R232). S, L, the working registers
and the snapshot have no reset value in the spec: DESIGN CHOICE zero (logs 1, 2), unsafe. -/
def State.resetOf (b : Build) : State where
  build := b
  phase := .idle
  keyValid := false
  ctxR := 0
  ctxB := 0
  S := List.replicate b.tableWords 0
  L := List.replicate b.cMax 0
  snapR := 0
  snapB := 0
  snapBlk := List.replicate b.blkBytes 0
  blockRegs := ⟨0, 0, 0, 0, 0, 0, 0⟩
  keyRegs := ⟨0, 0, 0, 0, 0⟩
  rounds := resetRounds b
  keylen := 0
  done := false
  err := false
  errcode := .none
  rejected := false
  lastOp := 0
  doneIe := false
  errIe := false
  rejIe := false
  mem := []
  rstN := true
  masters := []
  turns := []
  draws := 0

/-- The default build right after reset. -/
def State.reset : State := State.resetOf Build.default

end Sys2Proof.Machine
end

