-- ==== Sys2Proof/Machine/Ops.lean ====
section
/-! DEFINITION. The named operations: the sparse byte memory of the windows, stored Words, the draw of unspecified
values, the failure of a command (`raiseError`), and reset. -/

namespace Sys2Proof.Machine

open Sys2Proof

/-- What a byte of a window that nothing has written reads as: its reset value 0x00 (10_state.md R39 to R41). -/
def Memory.unlisted : Byte := 0x00#8

/-- One byte. -/
def Memory.read : Memory → Nat → Byte
  | [], _ => Memory.unlisted
  | (k, x) :: m, a => if k = a then x else Memory.read m a

/-- One byte written; the canonical form is kept: an entry that would read as an unlisted one is removed. -/
def Memory.write : Memory → Nat → Byte → Memory
  | [], a, v => if v = Memory.unlisted then [] else [(a, v)]
  | (k, x) :: m, a, v =>
    if k = a then (if v = Memory.unlisted then m else (a, v) :: m)
    else if a < k then (if v = Memory.unlisted then (k, x) :: m else (a, v) :: (k, x) :: m)
    else (k, x) :: Memory.write m a v

/-- Consecutive bytes written, the first at `a`. -/
def Memory.writeBytes : Memory → Nat → List Byte → Memory
  | m, _, [] => m
  | m, a, v :: vs => Memory.writeBytes (Memory.write m a v) (a + 1) vs

/-- `n` consecutive bytes read, the first at `a`. -/
def Memory.readBytes (m : Memory) : Nat → Nat → List Byte
  | _, 0 => []
  | a, n + 1 => Memory.read m a :: Memory.readBytes m (a + 1) n

/-- Offsets strictly rising from at least `lo`, no entry equal to what an unlisted offset reads as. -/
def Memory.wfFrom : Nat → Memory → Bool
  | _, [] => true
  | lo, (k, x) :: m => decide (lo ≤ k) && decide (x ≠ Memory.unlisted) && Memory.wfFrom (k + 1) m

/-- The canonical form: equal memories are equal lists. -/
def Memory.wf (m : Memory) : Bool := Memory.wfFrom 0 m

/-- Where the windows stand in the aperture (10_state.md R31). -/
def dinBase : Nat := 0x040
def doutBase : Nat := 0x060
def keyBase : Nat := 0x100

/-- DINBUF[k], DOUTBUF[k], KEYBUF[k] (10_state.md R39 to R41). -/
def State.dinByte (s : State) (k : Nat) : Byte := Memory.read s.mem (dinBase + k)
def State.doutByte (s : State) (k : Nat) : Byte := Memory.read s.mem (doutBase + k)
def State.keyByte (s : State) (k : Nat) : Byte := Memory.read s.mem (keyBase + k)

/-- Whether an aperture offset lies in one of the build's three windows (10_state.md R31). -/
def inWindow (b : Build) (a : Nat) : Bool :=
  (decide (dinBase ≤ a) && decide (a < dinBase + b.blkBytes))
    || (decide (doutBase ≤ a) && decide (a < doutBase + b.blkBytes))
    || (decide (keyBase ≤ a) && decide (a < keyBase + b.bMax))

/-- A Word put into its container (log 4). -/
def store {w : Nat} (x : Word w) : Stored := x.setWidth 64

/-- The Word of a build of width `w` in a container. -/
def load (w : Nat) (x : Stored) : Word w := x.setWidth w

/-- STATUS.BUSY = 1 exactly when phase is not IDLE (10_state.md R24). -/
def State.busy (s : State) : Bool := decide (s.phase ≠ .idle)

/-- Free values for entries `lo`, `lo`+1, …, `lo`+n-1 of S (V1, V2; log 3). -/
def drawS (b : Build) (draw lo n : Nat) : List Stored :=
  (List.range n).map fun k => store (load b.bits (Config.freeS draw (lo + k)))

/-- Free values for all of L (V1, V3; log 3). -/
def drawL (b : Build) (draw : Nat) : List Stored :=
  (List.range b.cMax).map fun k => store (load b.bits (Config.freeL draw k))

/-- Free values for the block working registers (V4; log 3). -/
def drawBlockRegs (b : Build) (draw : Nat) : BlockRegs where
  A := store (load b.bits (Config.freeReg draw 0))
  B := store (load b.bits (Config.freeReg draw 1))
  C := store (load b.bits (Config.freeReg draw 2))
  D := store (load b.bits (Config.freeReg draw 3))
  t := store (load b.bits (Config.freeReg draw 4))
  u := store (load b.bits (Config.freeReg draw 5))
  i := Config.freeCount draw 0

/-- Free values for the key-schedule registers (V4; log 3). -/
def drawKeyRegs (b : Build) (draw : Nat) : KeyRegs where
  KA := store (load b.bits (Config.freeReg draw 6))
  KB := store (load b.bits (Config.freeReg draw 7))
  KI := Config.freeCount draw 1
  KJ := Config.freeCount draw 2
  iter := Config.freeCount draw 3

/-- Free values for SNAP_BLK (V5; log 3). -/
def drawSnapBlk (b : Build) (draw : Nat) : List Byte :=
  (List.range b.blkBytes).map fun k => Config.freeByte draw k

/-- The snapshot after an operation has ended: unspecified while IDLE (V5; log 3). -/
def State.dropSnapshot (s : State) : State :=
  { s with
    snapR := (Config.freeSnap s.draws).extractLsb' 0 8
    snapB := (Config.freeSnap s.draws).extractLsb' 8 16
    snapBlk := drawSnapBlk s.build s.draws }

/-- `raise Error(code)`: the command fails (00_scope.md R12; 60_exceptions.md R205, R210). The core's one way of taking
an exception: nothing is saved and control goes nowhere (R214). -/
def State.raiseError (code : ErrorCode) (s : State) : State :=
  { s with err := true, errcode := code }

/-- Reset, `rst_n` sampled 0 (70_reset_and_hazards.md R230 to R232): every piece of the core's state takes its reset
value; S, L, the working registers and the snapshot are unspecified (V1, V3 to V5; log 3). The build is constant and the
bus masters are outside the core. -/
def State.resetLow (s : State) : State :=
  { State.resetOf s.build with
    S := drawS s.build s.draws 0 s.build.tableWords
    L := drawL s.build s.draws
    snapR := (Config.freeSnap s.draws).extractLsb' 0 8
    snapB := (Config.freeSnap s.draws).extractLsb' 8 16
    snapBlk := drawSnapBlk s.build s.draws
    blockRegs := drawBlockRegs s.build s.draws
    keyRegs := drawKeyRegs s.build s.draws
    rstN := false
    masters := s.masters
    turns := s.turns
    draws := s.draws + 1 }

/-- `rst_n` sampled 1: the core leaves reset (70_reset_and_hazards.md R230). -/
def State.resetHigh (s : State) : State := { s with rstN := true }

end Sys2Proof.Machine
end

