-- ==== Sys2Proof/Machine/Flags.lean ====
section
/-! DEFINITION. The STATUS flags, IRQ_EN, the interrupt output, and every way the flags change at an issue
(10_state.md R36, R37; 44_command_sequencer.md R181, R182; 60_exceptions.md R200, R211). -/

namespace Sys2Proof.Machine

open Sys2Proof

/-- A flag as a 1-bit field. -/
def flagBit (b : Bool) : BitVec 1 := BitVec.ofBool b

/-- The code's value in STATUS.ERRCODE (60_exceptions.md R200). -/
def ErrorCode.bits : ErrorCode → BitVec 4
  | .none => 0
  | .invalidKey => 1
  | .invalidWordWidth => 2
  | .invalidBlockLength => 3
  | .keyTooLong => 4
  | .invalidRounds => 5
  | .noKey => 6
  | .illegalCommand => 7

/-- What STATUS reads as (10_state.md R36): LAST_OP 15:12, REJECTED 8, ERRCODE 7:4, ERR 3, DONE 2, KEY_VALID 1,
BUSY 0, the reserved bits 0. -/
def State.statusWord (s : State) : BusWord :=
  0#16 ++ s.lastOp ++ 0#3 ++ flagBit s.rejected ++ s.errcode.bits ++ flagBit s.err ++ flagBit s.done
    ++ flagBit s.keyValid ++ flagBit s.busy

/-- A STATUS write: write-1-to-clear of DONE, ERR (with ERRCODE) and REJECTED; every other bit ignored
(10_state.md R36; 60_exceptions.md R212). -/
def State.writeStatus (v : BusWord) (s : State) : State :=
  { s with
    done := s.done && !v.getLsbD 2
    err := s.err && !v.getLsbD 3
    errcode := if v.getLsbD 3 then .none else s.errcode
    rejected := s.rejected && !v.getLsbD 8 }

/-- What IRQ_EN reads as (10_state.md R37). -/
def State.irqEnWord (s : State) : BusWord :=
  0#29 ++ flagBit s.rejIe ++ flagBit s.errIe ++ flagBit s.doneIe

/-- An IRQ_EN write (10_state.md R37). -/
def State.writeIrqEn (v : BusWord) (s : State) : State :=
  { s with doneIe := v.getLsbD 0, errIe := v.getLsbD 1, rejIe := v.getLsbD 2 }

/-- The interrupt output (60_exceptions.md R211). -/
def State.irq (s : State) : Bool :=
  (s.done && s.doneIe) || (s.err && s.errIe) || (s.rejected && s.rejIe)

/-- An issue while BUSY = 1: REJECTED is set and nothing else (44_command_sequencer.md R181). -/
def State.reject (s : State) : State := { s with rejected := true }

/-- What every issue while BUSY = 0 does first: DONE, ERR and ERRCODE cleared, LAST_OP recorded; REJECTED kept
(44_command_sequencer.md R182). -/
def State.issueEffects (op : BitVec 4) (s : State) : State :=
  { s with done := false, err := false, errcode := .none, lastOp := op }

/-- The issue of a command whose OP is `op` and whose issue part is `part`: rejected while BUSY, else the common effects
and then the issue part (44_command_sequencer.md R180 to R182; 60_exceptions.md R208). -/
def State.issue (op : BitVec 4) (part : State → State) (s : State) : State :=
  if s.busy then s.reject else part (s.issueEffects op)

end Sys2Proof.Machine
end

