-- ==== Sys2Proof/Machine/WordOps.lean ====
section
/-! DEFINITION. The WordOps datapath units (40_wordops.md R110 to R119): pure functions on Words of any width. -/

namespace Sys2Proof.Machine

open Sys2Proof

/-- `a +w b` (40_wordops.md R110). -/
def addMod {w : Nat} (a b : Word w) : Word w := BitVec.ofNat w (a.toNat + b.toNat)

/-- `a −w b`, the representative in 0 .. 2^W−1 (40_wordops.md R111). -/
def subMod {w : Nat} (a b : Word w) : Word w := BitVec.ofInt w ((a.toNat : Int) - (b.toNat : Int))

/-- `a *w b`, the low W bits of the product (40_wordops.md R112). -/
def mulMod {w : Nat} (a b : Word w) : Word w := BitVec.ofNat w (a.toNat * b.toNat)

/-- `a xor b` (40_wordops.md R113). -/
def xorWord {w : Nat} (a b : Word w) : Word w := a ^^^ b

/-- Rotate left by `amount mod W`; a rotation by 0 never shifts by W (40_wordops.md R114, R119). -/
def rotl {w : Nat} (value : Word w) (amount : Nat) : Word w :=
  let s := amount % w
  if s = 0 then value else (value <<< s) ||| (value >>> (w - s))

/-- Rotate right by `amount mod W` (40_wordops.md R115, R119). -/
def rotr {w : Nat} (value : Word w) (amount : Nat) : Word w :=
  let s := amount % w
  if s = 0 then value else (value >>> s) ||| (value <<< (w - s))

/-- lgW = log2(W) (00_scope.md R9). -/
def lgW (w : Nat) : Nat := Nat.log2 w

/-- The quadratic-rotation unit: `rotl(x *w (2x+1), lgW)` (40_wordops.md R116). -/
def qrot {w : Nat} (x : Word w) : Word w :=
  rotl (mulMod x (BitVec.ofNat w (2 * x.toNat + 1))) (lgW w)

end Sys2Proof.Machine
end

