-- ==== Sys2Proof/Machine/Operands.lean ====
section
/-! DEFINITION. The implicit operands of the commands (30_encoding.md R93) and the byte order of Words
(20_memory.md R67 to R70; 41_key_schedule.md R132). -/

namespace Sys2Proof.Machine

open Sys2Proof

/-- The value of bytes, the first the least significant (20_memory.md R67). -/
def leNat : List Byte → Nat
  | [] => 0
  | x :: xs => x.toNat + 256 * leNat xs

/-- Byte `k` of a Word (20_memory.md R68). -/
def byteOf {w : Nat} (x : Word w) (k : Nat) : Byte := x.extractLsb' (8 * k) 8

/-- The bytes of a Word of `u` bytes, the least significant first (20_memory.md R68). -/
def bytesOfWord {w : Nat} (u : Nat) (x : Word w) : List Byte := (List.range u).map (byteOf x)

/-- `wordLE(X, m)`: Word `m` of a byte array, `u` = W/8 bytes, byte m*u in bits 7:0 (20_memory.md R67). -/
def wordLE (w : Nat) (X : List Byte) (m : Nat) : Word w :=
  BitVec.ofNat w (leNat ((X.drop (m * (w / 8))).take (w / 8)))

/-- Byte `k` of a `b`-byte key as the packing sees it: bytes at index ≥ b are 0 (41_key_schedule.md R132). -/
def State.packedByte (s : State) (b k : Nat) : Byte := if k < b then s.keyByte k else 0#8

/-- Key Word `j` (41_key_schedule.md R132). -/
def State.packWord (s : State) (b j : Nat) : Word s.build.bits :=
  BitVec.ofNat s.build.bits
    (leNat ((List.range s.build.u).map fun k => s.packedByte b (j * s.build.u + k)))

/-- `packKey(KEYBUF, b)`: L[0 .. c−1] (41_key_schedule.md R132). -/
def State.packKey (s : State) (b : Nat) : List (Word s.build.bits) :=
  (List.range (s.build.keyWords b)).map (s.packWord b)

/-- The block in DINBUF: BLK_BYTES bytes (10_state.md R39; 30_encoding.md R93). -/
def State.dinBlock (s : State) : List Byte := Memory.readBytes s.mem dinBase s.build.blkBytes

/-- The result in DOUTBUF: BLK_BYTES bytes (10_state.md R40). -/
def State.doutBlock (s : State) : List Byte := Memory.readBytes s.mem doutBase s.build.blkBytes

/-- Entry `i` of a table. Every index a rule uses is in range; outside it the model reads 0 (log 18). -/
def entry {w : Nat} (S : List (Word w)) (i : Nat) : Word w := S.getD i 0#w

/-- The Words of S at the build's width. -/
def State.table (s : State) : List (Word s.build.bits) := s.S.map (load s.build.bits)

end Sys2Proof.Machine
end

