-- ==== Sys2Proof/Machine/BlockCipher.lean ====
section
/-! DEFINITION. The encrypt and decrypt pipelines and the ENCRYPT and DECRYPT commands (42_encrypt.md R150 to R152;
43_decrypt.md R165 to R167). -/

namespace Sys2Proof.Machine

open Sys2Proof

/-- A block as four Words (20_memory.md R67). -/
structure Block (w : Nat) where
  A : Word w
  B : Word w
  C : Word w
  D : Word w
  deriving DecidableEq, Repr

/-- Round `i` of encryption: t and u from the round's start, A and C updated, the roles rotated
(42_encrypt.md R151, step 2). -/
def encRound {w : Nat} (S : List (Word w)) (i : Nat) (x : Block w) : Block w :=
  let t := qrot x.B
  let u := qrot x.D
  let a := addMod (rotl (xorWord x.A t) u.toNat) (entry S (2 * i))
  let c := addMod (rotl (xorWord x.C u) t.toNat) (entry S (2 * i + 1))
  ⟨x.B, c, x.D, a⟩

/-- Round `i` of decryption: the roles un-rotated, then u and t, then C and A (43_decrypt.md R166, step 2). -/
def decRound {w : Nat} (S : List (Word w)) (i : Nat) (x : Block w) : Block w :=
  let a := x.D
  let b := x.A
  let c := x.B
  let d := x.C
  let u := qrot d
  let t := qrot b
  ⟨xorWord (rotr (subMod a (entry S (2 * i))) u.toNat) t, b,
    xorWord (rotr (subMod c (entry S (2 * i + 1))) t.toNat) u, d⟩

/-- Rounds 1 to R, ascending (42_encrypt.md R151). -/
def encRounds {w : Nat} (S : List (Word w)) : Nat → Block w → Block w
  | 0, x => x
  | n + 1, x => encRound S (n + 1) (encRounds S n x)

/-- Rounds R to 1, descending (43_decrypt.md R166). -/
def decRounds {w : Nat} (S : List (Word w)) : Nat → Block w → Block w
  | 0, x => x
  | n + 1, x => decRounds S n (decRound S (n + 1) x)

/-- `encryptBlock(S, R, A, B, C, D)` (42_encrypt.md R151). -/
def encryptBlock {w : Nat} (S : List (Word w)) (R : Nat) (x : Block w) : Block w :=
  let pre : Block w := { x with B := addMod x.B (entry S 0), D := addMod x.D (entry S 1) }
  let y := encRounds S R pre
  { y with A := addMod y.A (entry S (2 * R + 2)), C := addMod y.C (entry S (2 * R + 3)) }

/-- `decryptBlock(S, R, A, B, C, D)` (43_decrypt.md R166). -/
def decryptBlock {w : Nat} (S : List (Word w)) (R : Nat) (x : Block w) : Block w :=
  let pre : Block w :=
    { x with C := subMod x.C (entry S (2 * R + 3)), A := subMod x.A (entry S (2 * R + 2)) }
  let y := decRounds S R pre
  { y with D := subMod y.D (entry S 1), B := subMod y.B (entry S 0) }

/-- The block of a byte array (20_memory.md R67). -/
def blockOfBytes (w : Nat) (X : List Byte) : Block w :=
  ⟨wordLE w X 0, wordLE w X 1, wordLE w X 2, wordLE w X 3⟩

/-- The bytes of a block: its four distinct Words in order (20_memory.md R68). -/
def bytesOfBlock {w : Nat} (x : Block w) : List Byte :=
  bytesOfWord (w / 8) x.A ++ bytesOfWord (w / 8) x.B ++ bytesOfWord (w / 8) x.C ++ bytesOfWord (w / 8) x.D

/-- The start ENCRYPT and DECRYPT share: DINBUF captured, the phase entered (42_encrypt.md R150; 43_decrypt.md R165;
44_command_sequencer.md R184). -/
def State.startBlock (phase : Phase) (s : State) : State :=
  { s with snapBlk := s.dinBlock, phase := phase }

/-- The issue part ENCRYPT and DECRYPT share: NoKey, else the start (60_exceptions.md R206). -/
def State.blockPart (phase : Phase) (s : State) : State :=
  if s.keyValid then s.startBlock phase else s.raiseError .noKey

/-- ENCRYPT, issued (42_encrypt.md R150). -/
def execEncrypt (s : State) : Host.Outcome State Fault Refusal :=
  .next (s.issue 0x2#4 (State.blockPart .enc))

/-- DECRYPT, issued (43_decrypt.md R165). -/
def execDecrypt (s : State) : Host.Outcome State Fault Refusal :=
  .next (s.issue 0x3#4 (State.blockPart .dec))

/-- The bytes an ENCRYPT in flight computes from its snapshot and the context (42_encrypt.md R150, completion). -/
def State.encryptedBytes (s : State) : List Byte :=
  bytesOfBlock (encryptBlock s.table s.ctxR.toNat (blockOfBytes s.build.bits s.snapBlk))

/-- The bytes a DECRYPT in flight computes (43_decrypt.md R165, completion). -/
def State.decryptedBytes (s : State) : List Byte :=
  bytesOfBlock (decryptBlock s.table s.ctxR.toNat (blockOfBytes s.build.bits s.snapBlk))

/-- The completion ENCRYPT and DECRYPT share: DOUTBUF written in one step, DONE, IDLE (44_command_sequencer.md R185).
The block working registers and the snapshot are unspecified from here on (V4, V5; log 3). -/
def State.completeBlock (result : List Byte) (s : State) : State :=
  { s.dropSnapshot with
    mem := Memory.writeBytes s.mem doutBase result
    blockRegs := drawBlockRegs s.build s.draws
    done := true
    phase := .idle
    draws := s.draws + 1 }

end Sys2Proof.Machine
end

