-- ==== Sys2Proof/Machine/KeySchedule.lean ====
section
/-! DEFINITION. The key schedule engine and the SCHEDULE command (41_key_schedule.md R130 to R136). -/

namespace Sys2Proof.Machine

open Sys2Proof

/-- P_W (41_key_schedule.md R131). -/
def magicPNat : Width → Nat
  | .w8 => 0xB7
  | .w16 => 0xB7E1
  | .w32 => 0xB7E15163
  | .w64 => 0xB7E151628AED2A6B

/-- Q_W (41_key_schedule.md R131). -/
def magicQNat : Width → Nat
  | .w8 => 0x9F
  | .w16 => 0x9E37
  | .w32 => 0x9E3779B9
  | .w64 => 0x9E3779B97F4A7C15

def magicP (W : Width) : Word W.bits := BitVec.ofNat W.bits (magicPNat W)
def magicQ (W : Width) : Word W.bits := BitVec.ofNat W.bits (magicQNat W)

/-- `n` entries of the initial table, the first `x`, each next one `+w q` (41_key_schedule.md R133). -/
def initFrom {w : Nat} (q x : Word w) : Nat → List (Word w)
  | 0 => []
  | n + 1 => x :: initFrom q (addMod x q) n

/-- `initTable(T)` (41_key_schedule.md R133). -/
def initTable {w : Nat} (p q : Word w) (T : Nat) : List (Word w) := initFrom q p T

/-- What the mixing loop works on (41_key_schedule.md R134; 10_state.md R23). -/
structure Mix (w : Nat) where
  S : List (Word w)
  L : List (Word w)
  KA : Word w
  KB : Word w
  KI : Nat
  KJ : Nat
  deriving DecidableEq, Repr

/-- One iteration of the mixing loop: the second line reads the new KA and the old KB (41_key_schedule.md R134). -/
def mixStep {w : Nat} (T c : Nat) (x : Mix w) : Mix w :=
  let ka := rotl (addMod (addMod (entry x.S x.KI) x.KA) x.KB) 3
  let kb := rotl (addMod (addMod (entry x.L x.KJ) ka) x.KB) (addMod ka x.KB).toNat
  { S := x.S.set x.KI ka
    L := x.L.set x.KJ kb
    KA := ka
    KB := kb
    KI := (x.KI + 1) % T
    KJ := (x.KJ + 1) % c }

/-- `n` iterations, one after the other (00_scope.md R13). -/
def mixLoop {w : Nat} (T c : Nat) : Nat → Mix w → Mix w
  | 0, x => x
  | n + 1, x => mixLoop T c n (mixStep T c x)

/-- v = 3 * max(c, T) (00_scope.md R9). -/
def mixCount (T c : Nat) : Nat := 3 * max c T

/-- `mixKey(T, c)` on a table and key words (41_key_schedule.md R134). -/
def mixKey {w : Nat} (T c : Nat) (S L : List (Word w)) : Mix w :=
  mixLoop T c (mixCount T c) ⟨S, L, 0#w, 0#w, 0, 0⟩

/-- The RoundKeyTable for a round count and key words: `initTable`, then `mixKey` (41_key_schedule.md R133 to R135). -/
def roundKeyTable (W : Width) (R c : Nat) (L : List (Word W.bits)) : List (Word W.bits) :=
  (mixKey (tableLen R) c (initTable (magicP W) (magicQ W) (tableLen R)) L).S

/-- SCHEDULE's start (41_key_schedule.md R130; 44_command_sequencer.md R184): the old context is gone, R, b and the key
words are captured. -/
def State.startSchedule (s : State) : State :=
  let L0 := (s.packKey s.keylen.toNat).map store
  { s with
    keyValid := false
    ctxR := 0
    ctxB := 0
    snapR := s.rounds
    snapB := s.keylen
    L := L0 ++ s.L.drop L0.length
    phase := .sched }

/-- SCHEDULE's issue part: InvalidKey, KeyTooLong, InvalidRounds, in that order, else the start
(41_key_schedule.md R130; 60_exceptions.md R201, R202, R208). -/
def State.schedulePart (s : State) : State :=
  if s.keylen.toNat = 0 then s.raiseError .invalidKey
  else if s.keylen.toNat > s.build.bMax then s.raiseError .keyTooLong
  else if s.rounds.toNat > s.build.rMax.toNat then s.raiseError .invalidRounds
  else s.startSchedule

/-- SCHEDULE, issued (41_key_schedule.md R130). -/
def execSchedule (s : State) : Host.Outcome State Fault Refusal :=
  .next (s.issue 0x1#4 State.schedulePart)

/-- The table a SCHEDULE in flight computes from its snapshot (41_key_schedule.md R130, completion). -/
def State.scheduledTable (s : State) : List (Word s.build.bits) :=
  roundKeyTable s.build.W s.snapR.toNat (s.build.keyWords s.snapB.toNat)
    ((s.L.map (load s.build.bits)).take (s.build.keyWords s.snapB.toNat))

/-- SCHEDULE's completion (41_key_schedule.md R130; 44_command_sequencer.md R185). S at index ≥ T, L, the key-schedule
registers and the snapshot are unspecified from here on (V2 to V5; log 3). -/
def State.completeSchedule (s : State) : State :=
  let table := s.scheduledTable.map store
  { s.dropSnapshot with
    S := table ++ drawS s.build s.draws table.length (s.S.length - table.length)
    L := drawL s.build s.draws
    keyRegs := drawKeyRegs s.build s.draws
    ctxR := s.snapR
    ctxB := s.snapB
    keyValid := true
    done := true
    phase := .idle
    draws := s.draws + 1 }

end Sys2Proof.Machine
end

