-- ==== Sys2Proof/Machine/Bus.lean ====
section
/-! DEFINITION. Host transactions on the aperture (20_memory.md R60 to R66; 10_state.md R31 to R41) and the issue of a
command word (44_command_sequencer.md R180 to R182). -/

namespace Sys2Proof.Machine

open Sys2Proof

/-- What stands at an aligned offset (10_state.md R31); a window with the index of the word's first byte. -/
inductive Slot where
  | id | param | config | cmd | status | irqEn | ctx
  | din (k : Nat) | dout (k : Nat) | key (k : Nat)
  | unmapped
  deriving DecidableEq, Repr

/-- The register map (10_state.md R31), by the aligned offset. -/
def slotAt (b : Build) (a : Nat) : Slot :=
  if a = 0x000 then .id
  else if a = 0x004 then .param
  else if a = 0x008 then .config
  else if a = 0x00C then .cmd
  else if a = 0x010 then .status
  else if a = 0x014 then .irqEn
  else if a = 0x018 then .ctx
  else if dinBase ≤ a ∧ a < dinBase + b.blkBytes then .din (a - dinBase)
  else if doutBase ≤ a ∧ a < doutBase + b.blkBytes then .dout (a - doutBase)
  else if keyBase ≤ a ∧ a < keyBase + b.bMax then .key (a - keyBase)
  else .unmapped

/-- 4-byte alignment (20_memory.md R62). -/
def aligned (addr : Offset) : Bool := addr.extractLsb' 0 2 == 0#2

/-- The slot a read reaches, if it is aligned and full width (20_memory.md R62, R63). -/
def readSlot (b : Build) (addr : Offset) (size : ReadSize) : Slot :=
  if aligned addr && size == .word then slotAt b addr.toNat else .unmapped

/-- The slot a write reaches, if it is aligned and has all four strobes (20_memory.md R62, R63). -/
def writeSlot (b : Build) (addr : Offset) (strobes : BitVec 4) : Slot :=
  if aligned addr && strobes == 0b1111#4 then slotAt b addr.toNat else .unmapped

/-- ID (10_state.md R34). -/
def idWord : BusWord := 0x52433601#32

/-- PARAM: W in 7:0, R_MAX in 15:8, B_MAX in 31:16 (10_state.md R35). -/
def paramWord (b : Build) : BusWord := BitVec.ofNat 16 b.bMax ++ b.rMax ++ BitVec.ofNat 8 b.bits

/-- CONFIG: ROUNDS in 7:0, KEYLEN in 31:16 (10_state.md R32). -/
def State.configWord (s : State) : BusWord := s.keylen ++ 0#8 ++ s.rounds

/-- A CONFIG write stores both fields as written (10_state.md R32). -/
def State.writeConfig (v : BusWord) (s : State) : State :=
  { s with rounds := v.extractLsb' 0 8, keylen := v.extractLsb' 16 16 }

/-- CTX: CTX_R in 7:0, CTX_B in 31:16; 0 while KEY_VALID = 0 (10_state.md R38). -/
def State.ctxWord (s : State) : BusWord := if s.keyValid then s.ctxB ++ 0#8 ++ s.ctxR else 0#32

/-- The bus word at an offset of a window, little-endian lanes (20_memory.md R66). -/
def Memory.busWord (m : Memory) (a : Nat) : BusWord :=
  Memory.read m (a + 3) ++ Memory.read m (a + 2) ++ Memory.read m (a + 1) ++ Memory.read m a

/-- A bus word stored in a window, little-endian lanes (20_memory.md R66). -/
def State.storeWord (a : Nat) (v : BusWord) (s : State) : State :=
  { s with mem := Memory.writeBytes s.mem a (laneBytes v) }

/-- The data a slot reads as; none where a read is a bus error (20_memory.md R64, R65). -/
def State.readData (s : State) : Slot → Option BusWord
  | .id => some idWord
  | .param => some (paramWord s.build)
  | .config => some s.configWord
  | .cmd => some 0#32
  | .status => some s.statusWord
  | .irqEn => some s.irqEnWord
  | .ctx => some s.ctxWord
  | .din k => some (Memory.busWord s.mem (dinBase + k))
  | .dout k => some (Memory.busWord s.mem (doutBase + k))
  | .key _ => some 0#32
  | .unmapped => none

/-- Whether a slot may be written (20_memory.md R64, R65). -/
def Slot.writable : Slot → Bool
  | .id => false
  | .param => false
  | .config => true
  | .cmd => true
  | .status => true
  | .irqEn => true
  | .ctx => false
  | .din _ => true
  | .dout _ => false
  | .key _ => true
  | .unmapped => false

/-- The response to a transaction, from the state before it (20_memory.md R61 to R65). -/
def State.respond (s : State) : Txn → Response
  | .read addr size =>
    match s.readData (readSlot s.build addr size) with
    | some v => .okRead v
    | none => .err
  | .write addr strobes _ => if (writeSlot s.build addr strobes).writable then .okWrite else .err

/-- The issue of an ILLEGAL word: rejected while BUSY, else the common effects and IllegalCommand
(44_command_sequencer.md R181, R182; 60_exceptions.md R207). -/
def issueIllegal (w : BusWord) (s : State) : State :=
  s.issue (opField w) (State.raiseError .illegalCommand)

/-- The issue of a command word (44_command_sequencer.md R180 to R182). Both arms begin with the BUSY check of R181, so a
word issued while BUSY is rejected whatever it decodes to. -/
def issueWord (w : BusWord) (s : State) : Host.Outcome State Fault Refusal :=
  match decode w with
  | .ok i => exec i s
  | .error _ => .next (issueIllegal w s)

/-- A write of `v` to a slot; a bus error has no effect (20_memory.md R61, R65, R73). -/
def writeTo (slot : Slot) (v : BusWord) (s : State) : Host.Outcome State Fault Refusal :=
  match slot with
  | .config => .next (s.writeConfig v)
  | .cmd => issueWord v s
  | .status => .next (s.writeStatus v)
  | .irqEn => .next (s.writeIrqEn v)
  | .din k => .next (s.storeWord (dinBase + k) v)
  | .key k => .next (s.storeWord (keyBase + k) v)
  | .id => .next s
  | .param => .next s
  | .ctx => .next s
  | .dout _ => .next s
  | .unmapped => .next s

/-- The effect of a transaction; no read has one (20_memory.md R73). -/
def busEffect (t : Txn) (s : State) : Host.Outcome State Fault Refusal :=
  match t with
  | .read _ _ => .next s
  | .write addr strobes v => writeTo (writeSlot s.build addr strobes) v s

/-- BASE, 512-byte aligned (20_memory.md R60; 93_implementation_defined.md P5). -/
def apertureBase : Nat := 512 * Config.base512

/-- The offset a platform address has in the aperture (20_memory.md R60). -/
def offsetOf (address : Nat) : Option Offset :=
  if apertureBase ≤ address ∧ address < apertureBase + 512 then
    some (BitVec.ofNat 9 (address - apertureBase))
  else none

end Sys2Proof.Machine
end

