-- ==== Sys2Proof/Machine/Script.lean ====
section
/-! DEFINITION. Host scripts: the transaction of a line, its check, and the expansion of the pseudo-instructions
(30_encoding.md R96 to R98). -/

namespace Sys2Proof.Machine

open Sys2Proof

/-- The transaction a line performs (30_encoding.md R96). -/
def lineTxn : Line → Txn
  | .wr off data => .memWrite off data
  | .wre off data => .memWrite off data
  | .rd off => .memRead off
  | .rdExpect off _ => .memRead off
  | .rde off => .memRead off
  | .poll off _ _ => .memRead off
  | .raw t => t

/-- Whether a response is what the line requires (30_encoding.md R96). A POLL's read must be OK, whatever its data. -/
def lineAccepts : Line → Response → Bool
  | .wr _ _, r => r == .okWrite
  | .wre _ _, r => r == .err
  | .rd _, .okRead _ => true
  | .rd _, .okWrite => false
  | .rd _, .err => false
  | .rdExpect _ data, r => r == .okRead data
  | .rde _, r => r == .err
  | .poll _ _ _, .okRead _ => true
  | .poll _ _ _, .okWrite => false
  | .poll _ _ _, .err => false
  | .raw _, _ => true

/-- Whether a line is to be performed again: a POLL whose read was OK and whose masked data is not yet `val`
(30_encoding.md R96). -/
def lineRepeats : Line → Response → Bool
  | .poll _ mask val, .okRead v => decide (v &&& mask ≠ val)
  | .poll _ _ _, .okWrite => false
  | .poll _ _ _, .err => false
  | .wr _ _, _ => false
  | .wre _ _, _ => false
  | .rd _, _ => false
  | .rdExpect _ _, _ => false
  | .rde _, _ => false
  | .raw _, _ => false

/-- A master after its line got a response. A failed check is remembered and the script goes on: DESIGN CHOICE, log 9. -/
def Master.answered (line : Line) (r : Response) (h : Master) : Master where
  script := if lineRepeats line r then h.script else h.script.tail
  last := some r
  failed := h.failed || !lineAccepts line r

/-- Byte `k` of key bytes, 0x00 past their end (30_encoding.md R97). -/
def padByte (bytes : List Byte) (k : Nat) : Byte := bytes.getD k 0x00#8

/-- The bus word of bytes 4m to 4m+3 (30_encoding.md R97). -/
def wordAt (bytes : List Byte) (m : Nat) : BusWord :=
  padByte bytes (4 * m + 3) ++ padByte bytes (4 * m + 2) ++ padByte bytes (4 * m + 1) ++ padByte bytes (4 * m)

/-- The offset of bus word `m` of a window. -/
def windowOffset (base m : Nat) : Offset := BitVec.ofNat 9 (base + 4 * m)

/-- The lines a pseudo-instruction expands to (30_encoding.md R97, R98). -/
def expand : Pseudo → List Line
  | .cfg r b => [.wr 0x008#9 (b ++ 0#8 ++ r)]
  | .key bytes => (List.range ((bytes.length + 3) / 4)).map fun m => .wr (windowOffset keyBase m) (wordAt bytes m)
  | .blk bytes => (List.range (bytes.length / 4)).map fun m => .wr (windowOffset dinBase m) (wordAt bytes m)
  | .cmd i => [.wr 0x00C#9 (encode i)]
  | .wait => [.poll 0x010#9 0x00000001#32 0x00000000#32]
  | .rdblk bytes =>
    (List.range (bytes.length / 4)).map fun m => .rdExpect (windowOffset doutBase m) (wordAt bytes m)
  | .clr => [.wr 0x010#9 0x0000010C#32]
  | .go n => [.wr 0x00C#9 n]

/-- A script written with pseudo-instructions. -/
def expandAll : List Pseudo → List Line
  | [] => []
  | p :: ps => expand p ++ expandAll ps

end Sys2Proof.Machine
end

