-- ==== Sys2Proof/Machine/Turns.lean ====
section
/-! DEFINITION. The agents' turns: a bus master's transaction, the sequencer's completion, the reset pin
(10_state.md R20; 44_command_sequencer.md R185, R187; 70_reset_and_hazards.md R230). -/

namespace Sys2Proof.Machine

open Sys2Proof

/-- The completion of the operation in flight; while IDLE the sequencer has no step (44_command_sequencer.md R185). -/
def State.complete (s : State) : State :=
  match s.phase with
  | .idle => s
  | .sched => s.completeSchedule
  | .enc => s.completeBlock s.encryptedBytes
  | .dec => s.completeBlock s.decryptedBytes

/-- The next line of master `m`. -/
def State.nextLine (s : State) (m : Nat) : Option Line :=
  match s.masters[m]? with
  | some h => h.script.head?
  | none => none

/-- Master `m` after its line got a response. -/
def State.answer (m : Nat) (line : Line) (r : Response) (s : State) : State :=
  { s with masters := s.masters.modify m (Master.answered line r) }

/-- Applying a function to a next state; a stop stays as it is. -/
def mapNext (f : State → State) : Host.Outcome State Fault Refusal → Host.Outcome State Fault Refusal
  | .next s => .next (f s)
  | .fault r => .fault r
  | .refused r => .refused r

/-- Master `m` performs its next line: one transaction, one atomic step (20_memory.md R61, R72, R74). A transaction while
`rst_n` = 0 has no step (70_reset_and_hazards.md R230). A master with nothing left to do does nothing. -/
def hostTurn (m : Nat) (s : State) : Host.Outcome State Fault Refusal :=
  match s.nextLine m with
  | none => .next s
  | some line =>
    if s.rstN then mapNext (State.answer m line (s.respond (lineTxn line))) (busEffect (lineTxn line) s)
    else .fault .transactionDuringReset

/-- The sequencer's turn; while `rst_n` = 0 the core performs no operation step (70_reset_and_hazards.md R230). -/
def sequencerTurn (s : State) : State := if s.rstN then s.complete else s

/-- One agent moves. -/
def takeTurn (t : Turn) (s : State) : Host.Outcome State Fault Refusal :=
  match t with
  | .host m => hostTurn m s
  | .sequencer => .next (sequencerTurn s)
  | .resetLow => .next s.resetLow
  | .resetHigh => .next s.resetHigh

/-- The first master with a line left. -/
def readyMaster : List Master → Option Nat
  | [] => none
  | h :: hs => if h.script.isEmpty then (readyMaster hs).map (· + 1) else some 0

/-- Who moves next: the head of `turns`; when `turns` is used up, the operation in flight completes, else the first master
with a line left goes on (DESIGN CHOICE, log 6); with nothing of these, or in reset, nobody. -/
def State.nextTurn (s : State) : Option Turn :=
  match s.turns with
  | t :: _ => some t
  | [] =>
    if !s.rstN then none
    else if s.busy then some .sequencer
    else (readyMaster s.masters).map .host

/-- The head of `turns` is used up. -/
def State.popTurn (s : State) : State := { s with turns := s.turns.tail }

/-- One step of the machine: the next agent moves; with nobody to move the state stays (log 13). -/
def stepTurn (s : State) : Host.Outcome State Fault Refusal :=
  match s.nextTurn with
  | none => .next s
  | some t => takeTurn t s.popTurn

/-- A line put at the head of the first master's script. -/
def pushLine (line : Line) : List Master → List Master
  | [] => [⟨[line], none, false⟩]
  | h :: hs => { h with script := line :: h.script } :: hs

end Sys2Proof.Machine
end

