-- ==== Sys2Proof/Machine/Step.lean ====
section
/-! DEFINITION. The step, and how a command word comes to be the next thing the machine runs. -/

namespace Sys2Proof.Machine

open Sys2Proof

/-- One step: one agent moves (20_memory.md R72, R74; 44_command_sequencer.md R185). -/
def step (s : State) : Host.Outcome State Fault Refusal := stepTurn s

/-- The core fetches nothing (10_state.md R25): a command runs when a bus master writes it to CMD. The command word becomes
the first master's next line, `WR 0x00C, w`, and that master has the next turn, outside reset (log 8). -/
def State.withFetchWord (s : State) (nbits w : Nat) : State :=
  { s with
    rstN := true
    masters := pushLine (.wr 0x00C#9 (tableWord nbits w)) s.masters
    turns := .host 0 :: s.turns }

end Sys2Proof.Machine
end

