-- ==== Sys2Proof/Safety.lean ====
section
/-! DEFINITION. What the rules promise of every reachable state (`Inv`), what of a state a rule may read
(`SameReadable`), what a host can learn of it (`SameToHost`), and when a run is over. -/

namespace Sys2Proof.Machine

open Sys2Proof

/-- A stored Word fits the build's width. -/
def fits (b : Build) (x : Stored) : Prop := x.toNat < 2 ^ b.bits

/-- The promises every step keeps (10_state.md R24, R27 to R30, R36; 44_command_sequencer.md R184, R185;
60_exceptions.md R200, R203, R204; 70_reset_and_hazards.md R230). -/
structure Inv (s : State) : Prop where
  /-- Memory is in canonical form and lists only bytes of the three windows. -/
  mem_wf : Memory.wf s.mem = true
  mem_in_windows : ∀ c ∈ s.mem, inWindow s.build c.1 = true
  /-- S and L have the storage's size and hold Words of the build's width (R28, R29). -/
  S_length : s.S.length = s.build.tableWords
  L_length : s.L.length = s.build.cMax
  S_fits : ∀ x ∈ s.S, fits s.build x
  L_fits : ∀ x ∈ s.L, fits s.build x
  /-- The working registers hold Words of the build's width (R22, R23). -/
  regs_fit : ∀ x ∈ [s.blockRegs.A, s.blockRegs.B, s.blockRegs.C, s.blockRegs.D, s.blockRegs.t, s.blockRegs.u,
    s.keyRegs.KA, s.keyRegs.KB], fits s.build x
  /-- A context in force was scheduled with legal R and b; without one CTX_R and CTX_B are 0 (R27). -/
  context_legal : s.keyValid = true →
    s.ctxR.toNat ≤ s.build.rMax.toNat ∧ 1 ≤ s.ctxB.toNat ∧ s.ctxB.toNat ≤ s.build.bMax
  no_context : s.keyValid = false → s.ctxR = 0 ∧ s.ctxB = 0
  /-- What an operation in flight rests on (R30, R184). -/
  sched_legal : s.phase = .sched → s.keyValid = false ∧ s.snapR.toNat ≤ s.build.rMax.toNat ∧
    1 ≤ s.snapB.toNat ∧ s.snapB.toNat ≤ s.build.bMax ∧ s.lastOp = 0x1#4
  enc_legal : s.phase = .enc → s.keyValid = true ∧ s.lastOp = 0x2#4
  dec_legal : s.phase = .dec → s.keyValid = true ∧ s.lastOp = 0x3#4
  snapBlk_length : s.snapBlk.length = s.build.blkBytes
  /-- The invariants of R36. -/
  busy_flags : s.busy = true → s.done = false ∧ s.err = false
  done_err : ¬(s.done = true ∧ s.err = true)
  err_code : s.err = false → s.errcode = .none
  /-- Only the codes R200 says are reported; ERR = 1 always has one (R201 to R207). -/
  code_reported : s.errcode ≠ .invalidWordWidth ∧ s.errcode ≠ .invalidBlockLength
  code_of_err : s.err = true → s.errcode ≠ .none
  /-- DONE means the last command completed, and a context is in force (R185, R237). -/
  done_context : s.done = true → s.keyValid = true ∧ (s.lastOp = 0x1#4 ∨ s.lastOp = 0x2#4 ∨ s.lastOp = 0x3#4)
  /-- While `rst_n` = 0 the core stays in its reset state (R230, R232). -/
  in_reset : s.rstN = false → s.phase = .idle ∧ s.keyValid = false ∧ s.statusWord = 0#32 ∧ s.irqEnWord = 0#32

/-- Two states that agree on everything a rule may read before something writes it: all but the draws, the working
registers, L and the snapshot outside their operation, and S outside the context (93_implementation_defined.md V1 to V5). -/
structure SameReadable (s t : State) : Prop where
  build : s.build = t.build
  phase : s.phase = t.phase
  context : s.keyValid = t.keyValid ∧ s.ctxR = t.ctxR ∧ s.ctxB = t.ctxB
  config : s.rounds = t.rounds ∧ s.keylen = t.keylen
  status : s.done = t.done ∧ s.err = t.err ∧ s.errcode = t.errcode ∧ s.rejected = t.rejected ∧ s.lastOp = t.lastOp
  irqEn : s.doneIe = t.doneIe ∧ s.errIe = t.errIe ∧ s.rejIe = t.rejIe
  mem : s.mem = t.mem
  surroundings : s.rstN = t.rstN ∧ s.masters = t.masters ∧ s.turns = t.turns
  /-- The context's table, while there is one or a block is in flight. -/
  table : (s.keyValid = true ∨ s.phase = .enc ∨ s.phase = .dec) →
    s.S.take (tableLen s.ctxR.toNat) = t.S.take (tableLen s.ctxR.toNat)
  /-- The snapshot of the operation in flight. -/
  schedSnapshot : s.phase = .sched → s.snapR = t.snapR ∧ s.snapB = t.snapB ∧
    s.L.take (s.build.keyWords s.snapB.toNat) = t.L.take (s.build.keyWords s.snapB.toNat)
  blockSnapshot : (s.phase = .enc ∨ s.phase = .dec) → s.snapBlk = t.snapBlk

/-- Two outcomes that differ at most in what no rule reads. -/
def SameOutcome : Host.Outcome State Fault Refusal → Host.Outcome State Fault Refusal → Prop
  | .next s, .next t => SameReadable s t
  | .fault r, .fault r' => r = r'
  | .refused r, .refused r' => r = r'
  | .next _, .fault _ => False
  | .next _, .refused _ => False
  | .fault _, .next _ => False
  | .fault _, .refused _ => False
  | .refused _, .next _ => False
  | .refused _, .fault _ => False

/-- Two states that agree on what a transaction may show: the registers and the DIN and DOUT windows. They may differ in
KEYBUF, S, L, the snapshot and the working registers (60_exceptions.md R220). -/
structure SameToHost (s t : State) : Prop where
  build : s.build = t.build
  busy : s.busy = t.busy
  context : s.keyValid = t.keyValid ∧ s.ctxR = t.ctxR ∧ s.ctxB = t.ctxB
  config : s.rounds = t.rounds ∧ s.keylen = t.keylen
  status : s.done = t.done ∧ s.err = t.err ∧ s.errcode = t.errcode ∧ s.rejected = t.rejected ∧ s.lastOp = t.lastOp
  irqEn : s.doneIe = t.doneIe ∧ s.errIe = t.errIe ∧ s.rejIe = t.rejIe
  windows : ∀ k, k < s.build.blkBytes → s.dinByte k = t.dinByte k ∧ s.doutByte k = t.doutByte k

/-- Transactions performed one after the other, with no completion between them. -/
def busRun : List Txn → State → Host.Outcome State Fault Refusal
  | [], s => .next s
  | t :: ts, s =>
    match busEffect t s with
    | .next s' => busRun ts s'
    | .fault r => .fault r
    | .refused r => .refused r

/-- A command issued and, if it started, completed before anything else happens. -/
def runCommand (i : Instr) (s : State) : State :=
  match exec i s with
  | .next t => t.complete
  | .fault _ => s
  | .refused _ => s

/-- A run of the masters' scripts is over: every line performed and phase = IDLE (44_command_sequencer.md R189). R189 speaks
of one script and leaves a second master out; DESIGN CHOICE (log 22): with several masters every one's script is empty. -/
def runOver (s : State) : Bool := s.masters.all (fun h => h.script.isEmpty) && !s.busy

end Sys2Proof.Machine
end

