-- ==== Sys2Proof/WellFormed.lean ====
section
/-! DEFINITION. What is well formed: a command, a build's parameters, a host script's pseudo-instruction. -/

namespace Sys2Proof

/-- A command has no operand, so every one is well formed (30_encoding.md R93). -/
def Instr.wellFormed : Instr → Bool
  | .schedule => true
  | .encrypt => true
  | .decrypt => true

/-- The parameters of a legal build (00_scope.md R5 to R7). -/
def Build.paramsWellFormed (w rMax bMax : Nat) : Bool :=
  (w == 8 || w == 16 || w == 32 || w == 64) && decide (rMax ≤ 255)
    && (bMax % 8 == 0) && decide (8 ≤ bMax) && decide (bMax ≤ 256)

/-- A pseudo-instruction a build can expand (30_encoding.md R97): a block has exactly BLK_BYTES bytes, a key
1 to B_MAX. R97 bounds the length of KEY neither below nor above; DESIGN CHOICE (log 21): an empty KEY and one longer than
B_MAX are not well formed. -/
def Pseudo.wellFormed (b : Build) : Pseudo → Bool
  | .cfg _ _ => true
  | .key bytes => decide (1 ≤ bytes.length) && decide (bytes.length ≤ b.bMax)
  | .blk bytes => bytes.length == b.blkBytes
  | .cmd i => i.wellFormed
  | .wait => true
  | .rdblk bytes => bytes.length == b.blkBytes
  | .clr => true
  | .go _ => true

end Sys2Proof
end

