-- ==== Sys2Proof/Certificates/Slice0/Obligations.lean ====
section
/-! DEFINITION. The statements for the provers, one definition each. A statement that rests on a value or a behaviour the
model chose says so and names the log entry. -/

open Sys2Proof Sys2Proof.Machine

/-! ### Encoding (30_encoding.md) -/

/-- R92: decoding is a total function of the written value; all but three words are ILLEGAL. -/
def Obligations.CommandDecodingIsTotal : Prop :=
  ∀ w : BusWord,
    (w = 0x00000001#32 → decode w = .ok .schedule) ∧
    (w = 0x00000002#32 → decode w = .ok .encrypt) ∧
    (w = 0x00000003#32 → decode w = .ok .decrypt) ∧
    (w ≠ 0x00000001#32 → w ≠ 0x00000002#32 → w ≠ 0x00000003#32 →
      (∃ e, decode w = .error e) ∧
      (∀ s : State, s.busy = false → ∃ t, issueWord w s = .next t ∧ t.err = true ∧ t.errcode = .illegalCommand)) ∧
    (∀ s : State, s.busy = true → issueWord w s = .next { s with rejected := true })

/-- Decode and encode agree, on words and on bytes: every command's word decodes to it, and only that word does. -/
def Obligations.EncodeAndDecodeAgree : Prop :=
  (∀ i : Instr, decode (encode i) = .ok i) ∧
  (∀ (w : BusWord) (i : Instr), decode w = .ok i → w = encode i) ∧
  (∀ (i : Instr) (rest : List Byte), decodeBytes (encodeBytes i ++ rest) = .ok (i, rest)) ∧
  (∀ (bs rest : List Byte) (i : Instr), decodeBytes bs = .ok (i, rest) → bs = encodeBytes i ++ rest)

/-- The table's three words, bit by bit, and their neighbours. -/
def Obligations.CommandWordsDecode : Prop :=
  decode 0b00000000000000000000000000000001#32 = .ok .schedule ∧
  decode 0b00000000000000000000000000000010#32 = .ok .encrypt ∧
  decode 0b00000000000000000000000000000011#32 = .ok .decrypt ∧
  decode 0b00000000000000000000000000000000#32 = .error .reservedOpcode ∧
  decode 0b00000000000000000000000000000100#32 = .error .reservedOpcode ∧
  decode 0b00000000000000000000000000010010#32 = .error .reservedField ∧
  decode 0b10000000000000000000000000000010#32 = .error .reservedField

/-! ### Issue, start, failure (44_command_sequencer.md, 60_exceptions.md) -/

/-- A step runs the decoded command: when the next turn is a master's and its next line writes a command word to CMD, the
step is `exec` of the decoded command, with the turn used up and the line answered OK. And whatever that line is, the step
has the effect of the line's transaction: what `busEffect` leaves, with the turn used up and the line answered; a CMD write
issues its word, decoded or not. That a line of a master that has the turn is how a transaction comes about is the model's
form of a host (logs 6, 8). -/
def Obligations.StepRunsTheDecodedCommand : Prop :=
  (∀ (s : State) (m : Nat) (h : Master) (w : BusWord) (rest : List Line) (i : Instr),
    s.nextTurn = some (.host m) → s.rstN = true → s.masters[m]? = some h → h.script = .wr 0x00C#9 w :: rest →
    decode w = .ok i →
    step s = mapNext (State.answer m (.wr 0x00C#9 w) .okWrite) (exec i s.popTurn) ∧
    ∀ t : State, (t.answer m (.wr 0x00C#9 w) .okWrite).masters =
      t.masters.modify m (fun g => { g with script := g.script.tail, last := some .okWrite })) ∧
  (∀ (s : State) (m : Nat) (h : Master) (line : Line) (rest : List Line),
    s.nextTurn = some (.host m) → s.rstN = true → s.masters[m]? = some h → h.script = line :: rest →
    ∃ u, busEffect (lineTxn line) { s with turns := s.turns.tail } = .next u ∧
      step s = .next { u with masters := u.masters.modify m (Master.answered line (s.respond (lineTxn line))) }) ∧
  (∀ (off : Offset) (data : BusWord),
    lineTxn (.wr off data) = .memWrite off data ∧ lineTxn (.wre off data) = .memWrite off data) ∧
  (∀ (off : Offset) (data mask val : BusWord), lineTxn (.rd off) = .memRead off ∧ lineTxn (.rde off) = .memRead off ∧
    lineTxn (.rdExpect off data) = .memRead off ∧ lineTxn (.poll off mask val) = .memRead off) ∧
  (∀ t : Txn, lineTxn (.raw t) = t) ∧
  (∀ (w : BusWord) (s : State), busEffect (.memWrite 0x00C#9 w) s = issueWord w s)

/-- R181: an issue while BUSY = 1 sets REJECTED and does nothing else, for every word and every command. -/
def Obligations.BusyIssueIsRejected : Prop :=
  ∀ s : State, s.busy = true →
    (∀ w : BusWord, issueWord w s = .next { s with rejected := true }) ∧
    (∀ i : Instr, exec i s = .next { s with rejected := true })

/-- R183: everything an issue does happens in its one step. While not BUSY, the next STATUS read sees the failure, the
operation in flight, or (after its completion) DONE; while BUSY, it sees REJECTED and the operation that was in flight. -/
def Obligations.IssueIsSynchronous : Prop :=
  ∀ (w : BusWord) (s : State),
    (s.busy = false → ∃ t, issueWord w s = .next t ∧ t.lastOp = w.extractLsb' 0 4 ∧ t.rejected = s.rejected ∧
      ((t.err = true ∧ t.busy = false ∧ t.done = false ∧ t.complete = t) ∨
       (t.err = false ∧ t.busy = true ∧ t.done = false ∧
        t.complete.err = false ∧ t.complete.busy = false ∧ t.complete.done = true))) ∧
    (s.busy = true → ∃ t, issueWord w s = .next t ∧ t.rejected = true ∧ t.phase = s.phase ∧ t.busy = true ∧
      t.complete.rejected = true ∧ t.complete.busy = false ∧ t.complete.done = true)

/-- R184: a command whose checks all pass starts: what it captures, what it clears, and nothing else. -/
def Obligations.PassingCommandsStart : Prop :=
  ∀ s : State, s.busy = false →
    (1 ≤ s.keylen.toNat → s.keylen.toNat ≤ s.build.bMax → s.rounds.toNat ≤ s.build.rMax.toNat →
      exec .schedule s = .next
        { s with
          done := false, err := false, errcode := .none, lastOp := 0x1#4
          keyValid := false, ctxR := 0, ctxB := 0
          snapR := s.rounds, snapB := s.keylen
          L := (s.packKey s.keylen.toNat).map store ++ s.L.drop (s.build.keyWords s.keylen.toNat)
          phase := .sched }) ∧
    (s.keyValid = true →
      exec .encrypt s = .next
        { s with
          done := false, err := false, errcode := .none, lastOp := 0x2#4
          snapBlk := (List.range s.build.blkBytes).map s.dinByte, phase := .enc } ∧
      exec .decrypt s = .next
        { s with
          done := false, err := false, errcode := .none, lastOp := 0x3#4
          snapBlk := (List.range s.build.blkBytes).map s.dinByte, phase := .dec })

/-- R201, R202, R206: which command fails with which code, each with the exact state it leaves. -/
def Obligations.FailingCommandsReport : Prop :=
  ∀ s : State, s.busy = false →
    (s.keylen.toNat = 0 → exec .schedule s = .next
      { s with done := false, err := true, errcode := .invalidKey, lastOp := 0x1#4 }) ∧
    (s.keylen.toNat > s.build.bMax → exec .schedule s = .next
      { s with done := false, err := true, errcode := .keyTooLong, lastOp := 0x1#4 }) ∧
    (1 ≤ s.keylen.toNat → s.keylen.toNat ≤ s.build.bMax → s.rounds.toNat > s.build.rMax.toNat →
      exec .schedule s = .next
        { s with done := false, err := true, errcode := .invalidRounds, lastOp := 0x1#4 }) ∧
    (s.keyValid = false →
      exec .encrypt s = .next { s with done := false, err := true, errcode := .noKey, lastOp := 0x2#4 } ∧
      exec .decrypt s = .next { s with done := false, err := true, errcode := .noKey, lastOp := 0x3#4 })

/-- R207: a CMD write while BUSY = 0 whose value is ILLEGAL fails with IllegalCommand; LAST_OP records w[3:0] even then. -/
def Obligations.IllegalWordsFail : Prop :=
  ∀ (w : BusWord) (s : State), s.busy = false →
    (w.extractLsb' 4 28 ≠ 0#28 ∨
      (w.extractLsb' 0 4 ≠ 0x1#4 ∧ w.extractLsb' 0 4 ≠ 0x2#4 ∧ w.extractLsb' 0 4 ≠ 0x3#4)) →
    busEffect (.memWrite 0x00C#9 w) s = .next
      { s with done := false, err := true, errcode := .illegalCommand, lastOp := w.extractLsb' 0 4 }

/-- R210: whatever word fails and why, the failure changes exactly DONE, ERR, ERRCODE and LAST_OP. -/
def Obligations.FailureIsPrecise : Prop :=
  ∀ (w : BusWord) (s t : State), s.busy = false → issueWord w s = .next t → t.err = true →
    t = { s with done := false, err := true, errcode := t.errcode, lastOp := w.extractLsb' 0 4 } ∧ t.errcode ≠ .none

/-! ### The commands, from issue to completion (41_key_schedule.md, 42_encrypt.md, 43_decrypt.md) -/

/-- SCHEDULE, issued and completed: the round-key table of the key, R and b, and the new context; DOUTBUF and the rest of
the core's registers and memory untouched. S past the table, L, the key-schedule registers and the snapshot are
unspecified and not spoken of (log 3). -/
def Obligations.SchedulingBuildsTheContext : Prop :=
  ∀ s : State, s.busy = false → 1 ≤ s.keylen.toNat → s.keylen.toNat ≤ s.build.bMax →
    s.rounds.toNat ≤ s.build.rMax.toNat →
    ∃ s1, exec .schedule s = .next s1 ∧ s1.keyValid = false ∧ s1.ctxWord = 0#32 ∧ s1.busy = true ∧
      (s1.complete.S.take (2 * s.rounds.toNat + 4)).map (load s.build.bits) =
        (mixKey (2 * s.rounds.toNat + 4) (s.build.keyWords s.keylen.toNat)
          (initTable (magicP s.build.W) (magicQ s.build.W) (2 * s.rounds.toNat + 4)) (s.packKey s.keylen.toNat)).S ∧
      s1.complete.keyValid = true ∧ s1.complete.ctxR = s.rounds ∧ s1.complete.ctxB = s.keylen ∧
      s1.complete.done = true ∧ s1.complete.err = false ∧ s1.complete.errcode = .none ∧
      s1.complete.lastOp = 0x1#4 ∧ s1.complete.phase = .idle ∧
      s1.complete.mem = s.mem ∧ s1.complete.rejected = s.rejected ∧
      s1.complete.rounds = s.rounds ∧ s1.complete.keylen = s.keylen ∧
      s1.complete.doneIe = s.doneIe ∧ s1.complete.errIe = s.errIe ∧ s1.complete.rejIe = s.rejIe ∧
      s1.complete.blockRegs = s.blockRegs ∧ s1.complete.build = s.build ∧ s1.complete.rstN = s.rstN ∧
      s1.complete.masters = s.masters ∧ s1.complete.turns = s.turns

/-- ENCRYPT and DECRYPT, issued and completed: the bytes written to DOUTBUF, and everything else they leave alone. The
block working registers and the snapshot are unspecified and not spoken of (log 3). -/
def Obligations.BlockCommandsWriteTheResult : Prop :=
  ∀ s : State, Memory.wf s.mem = true → s.busy = false → s.keyValid = true →
    ∀ i : Instr, i = .encrypt ∨ i = .decrypt →
    ∃ s1, exec i s = .next s1 ∧ s1.busy = true ∧ s1.mem = s.mem ∧
      s1.complete.doutBlock = bytesOfBlock
        ((if i = .encrypt then encryptBlock else decryptBlock) (s.S.map (load s.build.bits)) s.ctxR.toNat
          ⟨wordLE s.build.bits s.dinBlock 0, wordLE s.build.bits s.dinBlock 1,
            wordLE s.build.bits s.dinBlock 2, wordLE s.build.bits s.dinBlock 3⟩) ∧
      (∀ a, (a < doutBase ∨ doutBase + s.build.blkBytes ≤ a) →
        Memory.read s1.complete.mem a = Memory.read s.mem a) ∧
      s1.complete.done = true ∧ s1.complete.err = false ∧ s1.complete.errcode = .none ∧
      s1.complete.lastOp = opcode i ∧ s1.complete.phase = .idle ∧
      s1.complete.S = s.S ∧ s1.complete.L = s.L ∧ s1.complete.keyRegs = s.keyRegs ∧
      s1.complete.keyValid = true ∧ s1.complete.ctxR = s.ctxR ∧ s1.complete.ctxB = s.ctxB ∧
      s1.complete.rejected = s.rejected ∧ s1.complete.rounds = s.rounds ∧ s1.complete.keylen = s.keylen ∧
      s1.complete.doneIe = s.doneIe ∧ s1.complete.errIe = s.errIe ∧ s1.complete.rejIe = s.rejIe ∧
      s1.complete.build = s.build ∧ s1.complete.rstN = s.rstN ∧
      s1.complete.masters = s.masters ∧ s1.complete.turns = s.turns

/-- R185: while an operation is in flight the sequencer's one step writes the result, DONE and IDLE together; while IDLE
it has none. That a turn given to it then is used up and changes nothing else is the model's choice (log 13). -/
def Obligations.CompletionIsOneStep : Prop :=
  ∀ s : State, s.nextTurn = some .sequencer → s.rstN = true →
    (s.phase = .idle → step s = .next s.popTurn) ∧
    (s.phase ≠ .idle → ∃ t, step s = .next t ∧ t.phase = .idle ∧ t.done = true) ∧
    (s.phase = .sched → ∃ t, step s = .next t ∧ t.keyValid = true ∧ t.ctxR = s.snapR ∧ t.ctxB = s.snapB ∧
      t.mem = s.mem ∧ t.S.take (tableLen s.snapR.toNat) =
        (roundKeyTable s.build.W s.snapR.toNat (s.build.keyWords s.snapB.toNat)
          ((s.L.map (load s.build.bits)).take (s.build.keyWords s.snapB.toNat))).map store) ∧
    (s.phase = .enc → ∃ t, step s = .next t ∧ t.S = s.S ∧ t.mem = Memory.writeBytes s.mem doutBase
      (bytesOfBlock (encryptBlock (s.S.map (load s.build.bits)) s.ctxR.toNat
        (blockOfBytes s.build.bits s.snapBlk)))) ∧
    (s.phase = .dec → ∃ t, step s = .next t ∧ t.S = s.S ∧ t.mem = Memory.writeBytes s.mem doutBase
      (bytesOfBlock (decryptBlock (s.S.map (load s.build.bits)) s.ctxR.toNat
        (blockOfBytes s.build.bits s.snapBlk))))

/-- R152: a block command's result depends only on the block and the context, so the commands may be issued repeatedly and
in any order and one does not affect the next; ENCRYPT never writes S, L, KEY_VALID, CTX, CONFIG, DINBUF or KEYBUF. -/
def Obligations.BlockCommandsAreIndependent : Prop :=
  (∀ (s t : State) (i : Instr), (i = .encrypt ∨ i = .decrypt) →
    Memory.wf s.mem = true → Memory.wf t.mem = true → s.busy = false → t.busy = false →
    s.keyValid = true → t.keyValid = true → s.build = t.build → s.ctxR = t.ctxR →
    (∀ k, k < 2 * s.ctxR.toNat + 4 → s.S.getD k 0 = t.S.getD k 0) → s.dinBlock = t.dinBlock →
    (runCommand i s).doutBlock = (runCommand i t).doutBlock) ∧
  (∀ (s : State) (i j : Instr), (i = .encrypt ∨ i = .decrypt) → (j = .encrypt ∨ j = .decrypt) →
    Memory.wf s.mem = true → s.busy = false → s.keyValid = true →
    (runCommand i (runCommand j s)).doutBlock = (runCommand i s).doutBlock) ∧
  (∀ s : State, s.busy = false →
    (runCommand .encrypt s).S = s.S ∧ (runCommand .encrypt s).L = s.L ∧
    (runCommand .encrypt s).keyValid = s.keyValid ∧ (runCommand .encrypt s).ctxR = s.ctxR ∧
    (runCommand .encrypt s).ctxB = s.ctxB ∧ (runCommand .encrypt s).configWord = s.configWord ∧
    (∀ k, k < s.build.blkBytes → (runCommand .encrypt s).dinByte k = s.dinByte k) ∧
    (∀ k, (runCommand .encrypt s).keyByte k = s.keyByte k))

/-- R135: two SCHEDULE commands with the same R, b and KEYBUF[0 .. b−1] leave the same table of exactly 2R+4 entries,
whatever S, L and the internal registers held before; the block commands leave it as it is. -/
def Obligations.SchedulingIsDeterministic : Prop :=
  (∀ s : State, s.busy = false → (runCommand .encrypt s).S = s.S ∧ (runCommand .decrypt s).S = s.S) ∧
  ∀ s t : State, s.busy = false → t.busy = false → s.build = t.build → s.rounds = t.rounds → s.keylen = t.keylen →
    1 ≤ s.keylen.toNat → s.keylen.toNat ≤ s.build.bMax → s.rounds.toNat ≤ s.build.rMax.toNat →
    (∀ k, k < s.keylen.toNat → s.keyByte k = t.keyByte k) →
    (runCommand .schedule s).S.take (2 * s.rounds.toNat + 4) =
      (runCommand .schedule t).S.take (2 * s.rounds.toNat + 4) ∧
    ((runCommand .schedule s).S.take (2 * s.rounds.toNat + 4)).length = 2 * s.rounds.toNat + 4

/-- Keys that differ only by trailing 0x00 bytes inside the same last Word schedule the same table. -/
def Obligations.TrailingZeroBytesDoNotMatter : Prop :=
  ∀ s t : State, s.busy = false → t.busy = false → s.build = t.build → s.rounds = t.rounds →
    s.rounds.toNat ≤ s.build.rMax.toNat → 1 ≤ s.keylen.toNat → s.keylen.toNat ≤ t.keylen.toNat →
    t.keylen.toNat ≤ s.build.bMax → s.build.keyWords s.keylen.toNat = s.build.keyWords t.keylen.toNat →
    (∀ k, k < s.keylen.toNat → s.keyByte k = t.keyByte k) →
    (∀ k, s.keylen.toNat ≤ k → k < t.keylen.toNat → t.keyByte k = 0x00#8) →
    (runCommand .schedule s).S.take (2 * s.rounds.toNat + 4) =
      (runCommand .schedule t).S.take (2 * s.rounds.toNat + 4)

/-- R134: the mixing loop is v = 3·max(c, T) sequential iterations from KA = KB = KI = KJ = 0, and what one iteration
does; the indices step modulo T and c. -/
def Obligations.KeyMixingLoop : Prop :=
  (∀ (w T c : Nat) (S L : List (Word w)),
    mixKey T c S L = (mixStep T c)^[3 * max c T] { S := S, L := L, KA := 0#w, KB := 0#w, KI := 0, KJ := 0 }) ∧
  (∀ (w T c : Nat) (x : Mix w) (hS : x.KI < x.S.length) (hL : x.KJ < x.L.length),
    (mixStep T c x).KA = rotl (x.S[x.KI] + x.KA + x.KB) 3 ∧
    (mixStep T c x).S = x.S.set x.KI (mixStep T c x).KA ∧
    (mixStep T c x).KB =
      rotl (x.L[x.KJ] + (mixStep T c x).KA + x.KB) ((mixStep T c x).KA + x.KB).toNat ∧
    (mixStep T c x).L = x.L.set x.KJ (mixStep T c x).KB ∧
    (mixStep T c x).KI = (x.KI + 1) % T ∧ (mixStep T c x).KJ = (x.KJ + 1) % c) ∧
  (∀ (w T c n : Nat) (x : Mix w), x.KI < T → x.KJ < c →
    (mixLoop T c n x).KI = (x.KI + n) % T ∧ (mixLoop T c n x).KJ = (x.KJ + n) % c)

/-- R133: every entry 0 .. T−1 is written, and S[i] = (P_W + i·Q_W) mod 2^W; the W = 32 example, which rests on the
constants of log 16. -/
def Obligations.InitialTableClosedForm : Prop :=
  (∀ (w T : Nat) (p q : Word w), (initTable p q T).length = T ∧
    ∀ i, i < T → entry (initTable p q T) i = BitVec.ofNat w (p.toNat + i * q.toNat)) ∧
  (initTable (w := 32) (magicP .w32) (magicQ .w32) 4 = [0xB7E15163#32, 0x5618CB1C#32, 0xF45044D5#32, 0x9287BE8E#32]) ∧
  (entry (initTable (w := 32) (magicP .w32) (magicQ .w32) 44) 43 = 0x4B32C376#32)

/-- R131: P_W = Odd((e − 2)·2^W) and Q_W = Odd((φ − 1)·2^W), the odd integers nearest, with the values of the table.
The spec marks this choice of constants as general knowledge; that the model takes them is PRESUMED (log 16). -/
def Obligations.MagicConstantsAreNearestOdd : Prop :=
  (∀ W : Width,
    Odd (magicP W).toNat ∧ |((magicP W).toNat : ℝ) - (Real.exp 1 - 2) * 2 ^ W.bits| < 1 ∧
    Odd (magicQ W).toNat ∧ |((magicQ W).toNat : ℝ) - ((1 + Real.sqrt 5) / 2 - 1) * 2 ^ W.bits| < 1) ∧
  (magicP .w8).toNat = 0xB7 ∧ (magicQ .w8).toNat = 0x9F ∧
  (magicP .w16).toNat = 0xB7E1 ∧ (magicQ .w16).toNat = 0x9E37 ∧
  (magicP .w32).toNat = 0xB7E15163 ∧ (magicQ .w32).toNat = 0x9E3779B9 ∧
  (magicP .w64).toNat = 0xB7E151628AED2A6B ∧ (magicQ .w64).toNat = 0x9E3779B97F4A7C15

/-- R132: c Words; byte k of key Word j is key byte j·u+k, and 0 at index ≥ b, whatever KEYBUF holds there; and a SCHEDULE
that starts puts them into L[0 .. c−1] at its issue. -/
def Obligations.KeyPackingIsLittleEndian : Prop :=
  (∀ (s : State) (b : Nat), (s.packKey b).length = (b + s.build.u - 1) / s.build.u ∧
    ∀ j k, j < (s.packKey b).length → k < s.build.u →
      (entry (s.packKey b) j).extractLsb' (8 * k) 8 =
        if j * s.build.u + k < b then s.keyByte (j * s.build.u + k) else 0x00#8) ∧
  (∀ s : State, s.busy = false → 1 ≤ s.keylen.toNat → s.keylen.toNat ≤ s.build.bMax →
    s.rounds.toNat ≤ s.build.rMax.toNat →
    ∃ t, exec .schedule s = .next t ∧
      (t.L.take (s.packKey s.keylen.toNat).length).map (load s.build.bits) = s.packKey s.keylen.toNat)

/-! ### The datapath units (40_wordops.md) and the cipher -/

/-- R110 to R113: the modular units, their corner cases and examples. -/
def Obligations.ModularUnits : Prop :=
  (∀ (w : Nat) (a b c : Word w),
    (addMod a b).toNat = (a.toNat + b.toNat) % 2 ^ w ∧ addMod a 0#w = a ∧ addMod a b = addMod b a ∧
    addMod (addMod a b) c = addMod a (addMod b c) ∧
    ((subMod a b).toNat : Int) = ((a.toNat : Int) - b.toNat) % (2 ^ w : Nat) ∧
    subMod a b = addMod a (BitVec.ofNat w (2 ^ w - b.toNat)) ∧ (subMod 0#w 1#w).toNat = 2 ^ w - 1 ∧
    subMod a a = 0#w ∧ subMod (addMod a b) b = a ∧
    (mulMod a b).toNat = (a.toNat * b.toNat) % 2 ^ w ∧ mulMod a b = BitVec.ofInt w (a.toInt * b.toInt) ∧
    (∀ i, (xorWord a b).getLsbD i = (a.getLsbD i != b.getLsbD i)) ∧ xorWord a a = 0#w ∧
    xorWord (xorWord a b) b = a) ∧
  addMod 0xFFFFFFFF#32 0x00000001#32 = 0x00000000#32 ∧ addMod 0x12345678#32 0x9ABCDEF0#32 = 0xACF13568#32 ∧
  subMod 0x12345678#32 0x9ABCDEF0#32 = 0x77777788#32 ∧ mulMod 0xFFFFFFFF#32 0xFFFFFFFF#32 = 0x00000001#32 ∧
  xorWord 0x0000FFFF#32 0x00FF00FF#32 = 0x00FFFF00#32

/-- R117: the rotation laws, for every width, Word and amount. -/
def Obligations.RotationLaws : Prop :=
  ∀ (w : Nat) (x : Word w) (s : Nat),
    rotl x 0 = x ∧ rotl x w = x ∧ rotl (rotr x s) s = x ∧ rotr (rotl x s) s = x ∧ rotl x s = rotl x (s % w)

/-- R114, R115: bit i of the value is bit (i + s) mod W of rotl's result, and bit (i + s) mod W of the value is bit i of
rotr's; the corner cases and examples. -/
def Obligations.RotationsMoveBits : Prop :=
  (∀ (w : Nat) (x : Word w) (s i : Nat), i < w →
    (rotl x s).getLsbD ((i + s) % w) = x.getLsbD i ∧ (rotr x s).getLsbD i = x.getLsbD ((i + s) % w)) ∧
  (∀ (w : Nat) (x : Word w) (s : Nat), 0 < w →
    rotl x (w - 1) = rotr x 1 ∧ rotr x (w - 1) = rotl x 1 ∧ rotr x s = rotl x ((w - s % w) % w) ∧
    (∀ k, rotl x (k * w) = x ∧ rotr x (k * w) = x)) ∧
  rotl 0x80000001#32 1 = 0x00000003#32 ∧ rotl 0x12345678#32 36 = 0x23456781#32 ∧
  rotr 0x80000001#32 1 = 0xC0000000#32 ∧ rotr 0x12345678#32 4 = 0x81234567#32

/-- R116: qrot for each build width, with lgW = 3, 4, 5, 6; the W = 32 corner cases and example. -/
def Obligations.QuadraticRotation : Prop :=
  (∀ x : Word 8, qrot x = rotl (BitVec.ofNat 8 (x.toNat * (2 * x.toNat + 1))) 3) ∧
  (∀ x : Word 16, qrot x = rotl (BitVec.ofNat 16 (x.toNat * (2 * x.toNat + 1))) 4) ∧
  (∀ x : Word 32, qrot x = rotl (BitVec.ofNat 32 (x.toNat * (2 * x.toNat + 1))) 5) ∧
  (∀ x : Word 64, qrot x = rotl (BitVec.ofNat 64 (x.toNat * (2 * x.toNat + 1))) 6) ∧
  qrot 0x00000000#32 = 0#32 ∧ qrot 0x00000001#32 = 0x00000060#32 ∧ qrot 0xFFFFFFFF#32 = 0x00000020#32 ∧
  qrot 0x80000000#32 = 0x00000010#32 ∧ qrot 0x12345678#32 = 0xC3C0DF09#32

/-- R118: a rotation amount taken from a Word uses only its bits lgW−1:0, and (A + B) mod W is (A +w B)[lgW−1:0]. -/
def Obligations.RotationAmountIsLowBits : Prop :=
  ∀ (W : Width) (x a b : Word W.bits),
    rotl x a.toNat = rotl x (a.extractLsb' 0 (lgW W.bits)).toNat ∧
    rotr x a.toNat = rotr x (a.extractLsb' 0 (lgW W.bits)).toNat ∧
    (a.toNat + b.toNat) % W.bits = ((addMod a b).extractLsb' 0 (lgW W.bits)).toNat

/-- R151: the encryption function, written with the bit vectors' own operations: pre-whitening, R rounds in ascending
order with t and u taken from the round's start, the roles rotated last, post-whitening. -/
def Obligations.EncryptionFunction : Prop :=
  (lgW 8 = 3 ∧ lgW 16 = 4 ∧ lgW 32 = 5 ∧ lgW 64 = 6) ∧
  ∀ (W : Width) (S : List (Word W.bits)) (R : Nat) (x : Block W.bits), 2 * R + 4 ≤ S.length →
    let round := fun (z : Block W.bits) (k : Nat) =>
      let t := (z.B * (2#W.bits * z.B + 1#W.bits)).rotateLeft (lgW W.bits)
      let u := (z.D * (2#W.bits * z.D + 1#W.bits)).rotateLeft (lgW W.bits)
      (⟨z.B, (z.C ^^^ u).rotateLeft t.toNat + S.getD (2 * (k + 1) + 1) 0#W.bits, z.D,
        (z.A ^^^ t).rotateLeft u.toNat + S.getD (2 * (k + 1)) 0#W.bits⟩ : Block W.bits)
    let y := (List.range R).foldl round
      ⟨x.A, x.B + S.getD 0 0#W.bits, x.C, x.D + S.getD 1 0#W.bits⟩
    encryptBlock S R x =
      ⟨y.A + S.getD (2 * R + 2) 0#W.bits, y.B, y.C + S.getD (2 * R + 3) 0#W.bits, y.D⟩

/-- R166: the decryption function, written with the bit vectors' own operations: post-whitening undone, R rounds in
descending order with the roles un-rotated first, pre-whitening undone. -/
def Obligations.DecryptionFunction : Prop :=
  ∀ (W : Width) (S : List (Word W.bits)) (R : Nat) (x : Block W.bits), 2 * R + 4 ≤ S.length →
    let round := fun (k : Nat) (z : Block W.bits) =>
      let u := (z.C * (2#W.bits * z.C + 1#W.bits)).rotateLeft (lgW W.bits)
      let t := (z.A * (2#W.bits * z.A + 1#W.bits)).rotateLeft (lgW W.bits)
      (⟨(z.D - S.getD (2 * (k + 1)) 0#W.bits).rotateRight u.toNat ^^^ t, z.A,
        (z.B - S.getD (2 * (k + 1) + 1) 0#W.bits).rotateRight t.toNat ^^^ u, z.C⟩ : Block W.bits)
    let y := (List.range R).foldr round
      ⟨x.A - S.getD (2 * R + 2) 0#W.bits, x.B, x.C - S.getD (2 * R + 3) 0#W.bits, x.D⟩
    decryptBlock S R x = ⟨y.A, y.B - S.getD 0 0#W.bits, y.C, y.D - S.getD 1 0#W.bits⟩

/-- R167: the round-trip law, of the two functions for every width, table, round count and block, and at the command
level: ENCRYPT of the block in DINBUF, DOUTBUF copied into DINBUF, DECRYPT under the same context leaves the block in
DOUTBUF. -/
def Obligations.RoundTripLaw : Prop :=
  (∀ (w : Nat) (S : List (Word w)) (R : Nat) (x : Block w),
    decryptBlock S R (encryptBlock S R x) = x ∧ encryptBlock S R (decryptBlock S R x) = x) ∧
  (∀ s : State, Memory.wf s.mem = true → s.busy = false → s.keyValid = true →
    ∃ s1 s2, exec .encrypt s = .next s1 ∧
      exec .decrypt
        { s1.complete with mem := Memory.writeBytes s1.complete.mem dinBase s1.complete.doutBlock } = .next s2 ∧
      s2.complete.doutBlock = s.dinBlock ∧ s2.complete.dinBlock = s1.complete.doutBlock)

/-- The table entries read are S[0] .. S[2R+3]: tables that agree there give the same block, both ways. -/
def Obligations.CipherReadsOnlyTheContextTable : Prop :=
  ∀ (w : Nat) (S S' : List (Word w)) (R : Nat) (x : Block w),
    (∀ k, k < 2 * R + 4 → entry S k = entry S' k) →
    encryptBlock S R x = encryptBlock S' R x ∧ decryptBlock S R x = decryptBlock S' R x

/-! ### Byte order and the bus (20_memory.md, 10_state.md) -/

/-- R67, R68: byte k of Word m of a byte array is byte m·u+k of the array, and the four Words written back are the array;
the source's example of the W = 32 convention. -/
def Obligations.WordByteOrder : Prop :=
  (∀ (W : Width) (X : List Byte), X.length = 4 * (W.bits / 8) →
    bytesOfBlock (blockOfBytes W.bits X) = X ∧
    blockOfBytes W.bits X = ⟨wordLE W.bits X 0, wordLE W.bits X 1, wordLE W.bits X 2, wordLE W.bits X 3⟩ ∧
    ∀ m k, m < 4 → k < W.bits / 8 →
      (wordLE W.bits X m).extractLsb' (8 * k) 8 = X.getD (m * (W.bits / 8) + k) 0#8) ∧
  (∀ (W : Width) (x : Block W.bits), blockOfBytes W.bits (bytesOfBlock x) = x ∧
    (bytesOfBlock x).length = 4 * (W.bits / 8) ∧
    ∀ k, k < W.bits / 8 →
      (bytesOfBlock x).getD k 0#8 = x.A.extractLsb' (8 * k) 8 ∧
      (bytesOfBlock x).getD (W.bits / 8 + k) 0#8 = x.B.extractLsb' (8 * k) 8 ∧
      (bytesOfBlock x).getD (2 * (W.bits / 8) + k) 0#8 = x.C.extractLsb' (8 * k) 8 ∧
      (bytesOfBlock x).getD (3 * (W.bits / 8) + k) 0#8 = x.D.extractLsb' (8 * k) 8) ∧
  wordLE 32 [0x02#8, 0x13#8, 0x24#8, 0x35#8] 0 = 0x35241302#32

/-- R70: where the Words of a window stand in its bus words, for each width: of the block in DIN, of the result in DOUT, and
of the key bytes in KEY. -/
def Obligations.MixedWidths : Prop :=
  ∀ (s : State) (base : Nat) (X : List Byte),
    (base = dinBase ∧ X = s.dinBlock) ∨ (base = doutBase ∧ X = s.doutBlock) ∨
      (base = keyBase ∧ X = (List.range s.build.bMax).map s.keyByte) →
    (s.build.W = .w32 → ∀ m, 4 * m < X.length → wordLE 32 X m = Memory.busWord s.mem (base + 4 * m)) ∧
    (s.build.W = .w64 → ∀ m, 8 * m < X.length →
      (wordLE 64 X m).extractLsb' 0 32 = Memory.busWord s.mem (base + 8 * m) ∧
      (wordLE 64 X m).extractLsb' 32 32 = Memory.busWord s.mem (base + 8 * m + 4)) ∧
    (s.build.W = .w16 → ∀ n, 4 * n < X.length →
      wordLE 16 X (2 * n) = (Memory.busWord s.mem (base + 4 * n)).extractLsb' 0 16 ∧
      wordLE 16 X (2 * n + 1) = (Memory.busWord s.mem (base + 4 * n)).extractLsb' 16 16) ∧
    (s.build.W = .w8 → ∀ n m, 4 * n < X.length → m < 4 →
      wordLE 8 X (4 * n + m) = (Memory.busWord s.mem (base + 4 * n)).extractLsb' (8 * m) 8)

/-- R66: the byte lanes of DIN writes and reads, DOUT reads and KEY writes, with every byte they leave alone. -/
def Obligations.ByteLanes : Prop :=
  ∀ (s : State) (v : BusWord) (n : Nat), Memory.wf s.mem = true →
    (4 * n < s.build.blkBytes →
      (∃ t, busEffect (.memWrite (BitVec.ofNat 9 (0x040 + 4 * n)) v) s = .next t ∧ t = { s with mem := t.mem } ∧
        (∀ k, k < 4 → t.dinByte (4 * n + k) = v.extractLsb' (8 * k) 8) ∧
        (∀ a, (a < 0x040 + 4 * n ∨ 0x040 + 4 * n + 4 ≤ a) → Memory.read t.mem a = Memory.read s.mem a)) ∧
      s.respond (.memRead (BitVec.ofNat 9 (0x040 + 4 * n))) = .okRead
        (s.dinByte (4 * n + 3) ++ s.dinByte (4 * n + 2) ++ s.dinByte (4 * n + 1) ++ s.dinByte (4 * n)) ∧
      s.respond (.memRead (BitVec.ofNat 9 (0x060 + 4 * n))) = .okRead
        (s.doutByte (4 * n + 3) ++ s.doutByte (4 * n + 2) ++ s.doutByte (4 * n + 1) ++ s.doutByte (4 * n))) ∧
    (4 * n < s.build.bMax →
      ∃ t, busEffect (.memWrite (BitVec.ofNat 9 (0x100 + 4 * n)) v) s = .next t ∧ t = { s with mem := t.mem } ∧
        (∀ k, k < 4 → t.keyByte (4 * n + k) = v.extractLsb' (8 * k) 8) ∧
        (∀ a, (a < 0x100 + 4 * n ∨ 0x100 + 4 * n + 4 ≤ a) → Memory.read t.mem a = Memory.read s.mem a))

/-- R62, R63, R64: a misaligned, a narrow or an unmapped transaction returns ERR; and whatever returns ERR has no effect. -/
def Obligations.RefusedTransactions : Prop :=
  ∀ s : State,
    (∀ t : Txn, s.respond t = .err → busEffect t s = .next s) ∧
    (∀ (a : Offset) (size : ReadSize) (strobes : BitVec 4) (v : BusWord), a.extractLsb' 0 2 ≠ 0#2 →
      s.respond (.read a size) = .err ∧ s.respond (.write a strobes v) = .err) ∧
    (∀ (a : Offset) (size : ReadSize), size ≠ .word → s.respond (.read a size) = .err) ∧
    (∀ (a : Offset) (strobes : BitVec 4) (v : BusWord), strobes ≠ 0b1111#4 → s.respond (.write a strobes v) = .err) ∧
    (∀ (a : Offset) (size : ReadSize) (strobes : BitVec 4) (v : BusWord),
      ((0x01C ≤ a.toNat ∧ a.toNat ≤ 0x03F) ∨ (0x040 + s.build.blkBytes ≤ a.toNat ∧ a.toNat ≤ 0x05F) ∨
        (0x060 + s.build.blkBytes ≤ a.toNat ∧ a.toNat ≤ 0x0FF) ∨ 0x100 + s.build.bMax ≤ a.toNat) →
      s.respond (.read a size) = .err ∧ s.respond (.write a strobes v) = .err)

/-- R65: read-only registers refuse writes; write-only registers read as 0; the writes of read/write registers are OK and
their reserved bits read as 0 and ignore what is written. -/
def Obligations.AccessRights : Prop :=
  ∀ (s : State) (v : BusWord) (n : Nat),
    (s.respond (.memWrite 0x000#9 v) = .err ∧ s.respond (.memWrite 0x004#9 v) = .err ∧
      s.respond (.memWrite 0x018#9 v) = .err ∧
      (4 * n < s.build.blkBytes → s.respond (.memWrite (BitVec.ofNat 9 (0x060 + 4 * n)) v) = .err)) ∧
    (∀ t : Txn, s.respond t = .err → busEffect t s = .next s) ∧
    (s.respond (.memRead 0x00C#9) = .okRead 0#32 ∧
      (4 * n < s.build.bMax → s.respond (.memRead (BitVec.ofNat 9 (0x100 + 4 * n))) = .okRead 0#32)) ∧
    (∀ (a : Offset) (size : ReadSize), busEffect (.read a size) s = .next s) ∧
    (s.respond (.memWrite 0x008#9 v) = .okWrite ∧ s.respond (.memWrite 0x00C#9 v) = .okWrite ∧
      s.respond (.memWrite 0x010#9 v) = .okWrite ∧ s.respond (.memWrite 0x014#9 v) = .okWrite ∧
      (4 * n < s.build.blkBytes → s.respond (.memWrite (BitVec.ofNat 9 (0x040 + 4 * n)) v) = .okWrite) ∧
      (4 * n < s.build.bMax → s.respond (.memWrite (BitVec.ofNat 9 (0x100 + 4 * n)) v) = .okWrite)) ∧
    (∃ c st ie, s.respond (.memRead 0x008#9) = .okRead c ∧ c &&& 0x0000FF00#32 = 0#32 ∧
      s.respond (.memRead 0x010#9) = .okRead st ∧ st &&& 0xFFFF0E00#32 = 0#32 ∧
      s.respond (.memRead 0x014#9) = .okRead ie ∧ ie &&& 0xFFFFFFF8#32 = 0#32) ∧
    (∀ v' : BusWord,
      (v &&& 0xFFFF00FF#32 = v' &&& 0xFFFF00FF#32 →
        busEffect (.memWrite 0x008#9 v) s = busEffect (.memWrite 0x008#9 v') s) ∧
      (v &&& 0x0000010C#32 = v' &&& 0x0000010C#32 →
        busEffect (.memWrite 0x010#9 v) s = busEffect (.memWrite 0x010#9 v') s) ∧
      (v &&& 0x00000007#32 = v' &&& 0x00000007#32 →
        busEffect (.memWrite 0x014#9 v) s = busEffect (.memWrite 0x014#9 v') s))

/-- R73: no read has a side effect; repeating a write to CONFIG, IRQ_EN, DINBUF or KEYBUF changes nothing more; a CMD write
is not idempotent. -/
def Obligations.SideEffects : Prop :=
  (∀ (s : State) (a : Offset) (size : ReadSize), busEffect (.read a size) s = .next s) ∧
  (∀ (s t : State) (a : Offset) (v : BusWord), Memory.wf s.mem = true → a ≠ 0x00C#9 → a ≠ 0x010#9 →
    busEffect (.memWrite a v) s = .next t → busEffect (.memWrite a v) t = .next t) ∧
  (∃ (s t u : State) (w : BusWord), busEffect (.memWrite 0x00C#9 w) s = .next t ∧
    busEffect (.memWrite 0x00C#9 w) t = .next u ∧ u ≠ t)

/-- R34, R35: ID and PARAM read as constants of the build in every state, refuse writes, and no step changes the build. -/
def Obligations.IdentityRegisters : Prop :=
  (∀ s : State, s.respond (.memRead 0x000#9) = .okRead 0x52433601#32 ∧
    (∃ p, s.respond (.memRead 0x004#9) = .okRead p ∧ (p.extractLsb' 0 8).toNat = s.build.bits ∧
      p.extractLsb' 8 8 = s.build.rMax ∧ (p.extractLsb' 16 16).toNat = s.build.bMax) ∧
    ∀ v, s.respond (.memWrite 0x000#9 v) = .err ∧ s.respond (.memWrite 0x004#9 v) = .err ∧
      busEffect (.memWrite 0x000#9 v) s = .next s ∧ busEffect (.memWrite 0x004#9 v) s = .next s) ∧
  State.reset.respond (.memRead 0x004#9) = .okRead 0x01001420#32 ∧
  (∀ s t : State, step s = .next t → t.build = s.build)

/-- CONFIG stores both fields as written, legal or not, reads them back with the reserved byte 0, and changes nothing
else; its reset value. -/
def Obligations.ConfigRegister : Prop :=
  (∀ (s : State) (v : BusWord),
    busEffect (.memWrite 0x008#9 v) s = .next { s with rounds := v.extractLsb' 0 8, keylen := v.extractLsb' 16 16 } ∧
    ∃ c, s.respond (.memRead 0x008#9) = .okRead c ∧ c.extractLsb' 0 8 = s.rounds ∧ c.extractLsb' 8 8 = 0#8 ∧
      c.extractLsb' 16 16 = s.keylen) ∧
  (∀ b : Build, (State.resetOf b).rounds.toNat = min 20 b.rMax.toNat ∧ (State.resetOf b).keylen = 0#16)

/-- STATUS: where each field reads, ERRCODE with the code number of each error (60_exceptions.md R200), and a write acts only
on the write-1-to-clear bits. -/
def Obligations.StatusRegister : Prop :=
  (ErrorCode.none.bits = 0#4 ∧ ErrorCode.invalidKey.bits = 1#4 ∧ ErrorCode.invalidWordWidth.bits = 2#4 ∧
    ErrorCode.invalidBlockLength.bits = 3#4 ∧ ErrorCode.keyTooLong.bits = 4#4 ∧ ErrorCode.invalidRounds.bits = 5#4 ∧
    ErrorCode.noKey.bits = 6#4 ∧ ErrorCode.illegalCommand.bits = 7#4) ∧
  ∀ s : State,
    (∃ w, s.respond (.memRead 0x010#9) = .okRead w ∧
      w.getLsbD 0 = s.busy ∧ w.getLsbD 1 = s.keyValid ∧ w.getLsbD 2 = s.done ∧ w.getLsbD 3 = s.err ∧
      w.extractLsb' 4 4 = s.errcode.bits ∧ w.getLsbD 8 = s.rejected ∧ w.extractLsb' 9 3 = 0#3 ∧
      w.extractLsb' 12 4 = s.lastOp ∧ w.extractLsb' 16 16 = 0#16) ∧
    ∀ v : BusWord, busEffect (.memWrite 0x010#9 v) s = .next
      { s with
        done := if v.getLsbD 2 then false else s.done
        err := if v.getLsbD 3 then false else s.err
        errcode := if v.getLsbD 3 then .none else s.errcode
        rejected := if v.getLsbD 8 then false else s.rejected }

/-- R37, R38: IRQ_EN reads back its three bits and nothing else; CTX shows the context, and 0 without one; reset values. -/
def Obligations.IrqEnableAndContextRegisters : Prop :=
  (∀ (s : State) (v : BusWord),
    (∃ e, s.respond (.memRead 0x014#9) = .okRead e ∧ e.getLsbD 0 = s.doneIe ∧ e.getLsbD 1 = s.errIe ∧
      e.getLsbD 2 = s.rejIe ∧ e.extractLsb' 3 29 = 0#29) ∧
    busEffect (.memWrite 0x014#9 v) s = .next
      { s with doneIe := v.getLsbD 0, errIe := v.getLsbD 1, rejIe := v.getLsbD 2 } ∧
    (∃ c, s.respond (.memRead 0x018#9) = .okRead c ∧ (s.keyValid = false → c = 0#32) ∧
      (s.keyValid = true → c.extractLsb' 0 8 = s.ctxR ∧ c.extractLsb' 8 8 = 0#8 ∧ c.extractLsb' 16 16 = s.ctxB)) ∧
    s.respond (.memWrite 0x018#9 v) = .err ∧ busEffect (.memWrite 0x018#9 v) s = .next s) ∧
  (∀ b : Build, (State.resetOf b).respond (.memRead 0x014#9) = .okRead 0#32 ∧
    (State.resetOf b).respond (.memRead 0x018#9) = .okRead 0#32)

/-- R211: the interrupt output, from what STATUS and IRQ_EN read as. -/
def Obligations.InterruptOutput : Prop :=
  ∀ s : State, ∃ st en, s.respond (.memRead 0x010#9) = .okRead st ∧ s.respond (.memRead 0x014#9) = .okRead en ∧
    (s.irq = true ↔ (st.getLsbD 2 = true ∧ en.getLsbD 0 = true) ∨ (st.getLsbD 3 = true ∧ en.getLsbD 1 = true) ∨
      (st.getLsbD 8 = true ∧ en.getLsbD 2 = true))

/-- R212: masking does not clear a flag, enabling a pending source raises irq at once, a STATUS write clears exactly the
flags it names, a CMD write while BUSY = 0 clears DONE and the old ERR (its next state is the same as if they had been 0), and in any step REJECTED falls only by a STATUS
write with bit 8 set (or by reset). -/
def Obligations.InterruptFlagsAndClearing : Prop :=
  (∀ (s t : State) (v : BusWord), busEffect (.memWrite 0x014#9 v) s = .next t →
    t.done = s.done ∧ t.err = s.err ∧ t.rejected = s.rejected ∧
    (t.irq = true ↔ (s.done = true ∧ v.getLsbD 0 = true) ∨ (s.err = true ∧ v.getLsbD 1 = true) ∨
      (s.rejected = true ∧ v.getLsbD 2 = true))) ∧
  (∀ (s t : State) (v : BusWord), busEffect (.memWrite 0x010#9 v) s = .next t →
    (t.done = true ↔ s.done = true ∧ v.getLsbD 2 = false) ∧ (t.err = true ↔ s.err = true ∧ v.getLsbD 3 = false) ∧
    (t.rejected = true ↔ s.rejected = true ∧ v.getLsbD 8 = false)) ∧
  (∀ (s t : State) (w : BusWord), s.busy = false → busEffect (.memWrite 0x00C#9 w) s = .next t →
    busEffect (.memWrite 0x00C#9 w) { s with done := false, err := false, errcode := .none } = .next t ∧
    t.done = false ∧ (t.err = true → t.lastOp = w.extractLsb' 0 4 ∧ t.phase = .idle) ∧ t.rejected = s.rejected) ∧
  (∀ s t : State, step s = .next t → s.rejected = true → t.rejected = false →
    s.nextTurn = some .resetLow ∨
    ∃ m line v, s.nextTurn = some (.host m) ∧ s.nextLine m = some line ∧ lineTxn line = .memWrite 0x010#9 v ∧
      v.getLsbD 8 = true) ∧
  (∀ s : State, s.irq = true → (s.done = true ∧ s.doneIe = true) ∨ (s.err = true ∧ s.errIe = true) ∨
    (s.rejected = true ∧ s.rejIe = true))

/-- No transaction and no interrupt tells apart two states that differ only in KEYBUF, S, L, the snapshot and the working
registers. -/
def Obligations.KeyMaterialIsNeverReadable : Prop :=
  ∀ s t : State, SameToHost s t → (∀ x : Txn, s.respond x = t.respond x) ∧ s.irq = t.irq

/-! ### Whole-machine rules over one step -/

/-- DOUTBUF changes only at the completion of an ENCRYPT or DECRYPT, or by reset. -/
def Obligations.DoutChangesOnlyAtCompletion : Prop :=
  ∀ (s t : State) (k : Nat), step s = .next t → k < s.build.blkBytes → t.doutByte k ≠ s.doutByte k →
    (s.nextTurn = some .sequencer ∧ s.rstN = true ∧ (s.phase = .enc ∨ s.phase = .dec) ∧ t.done = true) ∨
    s.nextTurn = some .resetLow

/-- The round-key table storage and the context change only by SCHEDULE (the context cleared at its start, the new one
written at its completion), or by reset. -/
def Obligations.RoundKeysWrittenOnlyBySchedule : Prop :=
  ∀ s t : State, step s = .next t →
    (t.S ≠ s.S →
      (s.nextTurn = some .sequencer ∧ s.rstN = true ∧ s.phase = .sched ∧ t.keyValid = true) ∨
      s.nextTurn = some .resetLow) ∧
    ((t.keyValid ≠ s.keyValid ∨ t.ctxR ≠ s.ctxR ∨ t.ctxB ≠ s.ctxB) →
      (s.nextTurn = some .sequencer ∧ s.rstN = true ∧ s.phase = .sched ∧ t.keyValid = true) ∨
      (s.phase = .idle ∧ t.phase = .sched ∧ t.keyValid = false) ∨
      s.nextTurn = some .resetLow)

/-- R24: BUSY exactly when phase ≠ IDLE; only a start, which is a master's CMD write, leaves IDLE; only a completion or
reset returns to it; and no other step changes the phase. -/
def Obligations.PhaseChanges : Prop :=
  (∀ s : State, s.busy = true ↔ s.phase ≠ .idle) ∧ (∀ b : Build, (State.resetOf b).phase = .idle) ∧
  (∀ s t : State, step s = .next t →
    (s.phase = .idle → t.phase ≠ .idle →
      ∃ m line i, s.nextTurn = some (.host m) ∧ s.nextLine m = some line ∧
        lineTxn line = .memWrite 0x00C#9 (encode i) ∧ t.err = false ∧
        (t.phase = .sched ↔ i = .schedule) ∧ (t.phase = .enc ↔ i = .encrypt) ∧ (t.phase = .dec ↔ i = .decrypt)) ∧
    (s.phase ≠ .idle → t.phase = .idle →
      (s.nextTurn = some .sequencer ∧ t.done = true) ∨ s.nextTurn = some .resetLow) ∧
    (s.phase ≠ .idle → t.phase ≠ .idle → t.phase = s.phase))

/-- The inputs of an operation are fixed at its start: whatever transactions are performed between the start and the
completion, the completion writes the same table, context and result. -/
def Obligations.InFlightInputsAreFixed : Prop :=
  ∀ (s : State) (ts : List Txn), Memory.wf s.mem = true → s.phase ≠ .idle →
    ∃ t, busRun ts s = .next t ∧ t.phase = s.phase ∧ t.snapR = s.snapR ∧ t.snapB = s.snapB ∧ t.snapBlk = s.snapBlk ∧
      t.complete.S = s.complete.S ∧ t.complete.keyValid = s.complete.keyValid ∧
      t.complete.ctxR = s.complete.ctxR ∧ t.complete.ctxB = s.complete.ctxB ∧
      t.complete.doutBlock = s.complete.doutBlock

/-- An operation in flight is completed unless reset intervenes, whatever the order of turns. The bound rests on the
model's order of turns (log 6). -/
def Obligations.InFlightOperationCompletes : Prop :=
  ∀ s : State, s.rstN = true → s.phase ≠ .idle → (∀ x ∈ s.turns, x ≠ .resetLow) →
    ∃ k t, k ≤ s.turns.length + 1 ∧ Sys2Proof.core.run k s = .next t ∧ t.phase = .idle ∧ t.done = true

/-- The placement of a completion is visible exactly to a host that issues without waiting: an ENCRYPT right after a
SCHEDULE is rejected before the completion and starts after it. -/
def Obligations.PlacementDecidesRejection : Prop :=
  ∀ s : State, s.busy = false → 1 ≤ s.keylen.toNat → s.keylen.toNat ≤ s.build.bMax →
    s.rounds.toNat ≤ s.build.rMax.toNat →
    ∃ s1, exec .schedule s = .next s1 ∧
      (∃ a, exec .encrypt s1 = .next a ∧ a.rejected = true ∧ a.phase = .sched ∧ a.lastOp = 0x1#4 ∧
        a.complete.lastOp = 0x1#4 ∧ a.complete.rejected = true ∧ a.complete.doutBlock = s.doutBlock) ∧
      (∃ b, exec .encrypt s1.complete = .next b ∧ b.rejected = s.rejected ∧ b.phase = .enc ∧ b.lastOp = 0x2#4)

/-! ### Reset (70_reset_and_hazards.md) -/

/-- R232: after reset, for every build: IDLE, no context, STATUS = 0, IRQ_EN = 0, irq = 0; and every host-visible byte
and register reads its reset value. -/
def Obligations.StateAfterReset : Prop :=
  ∀ b : Build,
    (State.resetOf b).phase = .idle ∧ (State.resetOf b).keyValid = false ∧
    (State.resetOf b).respond (.memRead 0x010#9) = .okRead 0#32 ∧
    (State.resetOf b).respond (.memRead 0x014#9) = .okRead 0#32 ∧ (State.resetOf b).irq = false ∧
    (State.resetOf b).respond (.memRead 0x018#9) = .okRead 0#32 ∧
    (∀ n, 4 * n < b.blkBytes →
      (State.resetOf b).respond (.memRead (BitVec.ofNat 9 (0x040 + 4 * n))) = .okRead 0#32 ∧
      (State.resetOf b).respond (.memRead (BitVec.ofNat 9 (0x060 + 4 * n))) = .okRead 0#32) ∧
    (∀ k, (State.resetOf b).keyByte k = 0x00#8)

/-- Reset takes effect in any state, abandons an operation in flight without a result, and leaves the reset values; while
`rst_n` = 0 the sequencer has no operation step. That the masters and the turns survive a reset and that the pin's samples
are turns is the model's choice (log 12), as is that a turn with nothing to do only uses itself up (log 13). -/
def Obligations.ResetAbandonsEverything : Prop :=
  (∀ s : State, s.nextTurn = some .resetLow → ∃ t, step s = .next t ∧
    t.phase = .idle ∧ t.keyValid = false ∧ t.ctxR = 0 ∧ t.ctxB = 0 ∧ t.statusWord = 0#32 ∧ t.irqEnWord = 0#32 ∧
    t.rounds = (State.resetOf s.build).rounds ∧ t.keylen = 0 ∧
    (∀ a, Memory.read t.mem a = 0x00#8) ∧ t.irq = false ∧ t.rstN = false ∧ t.build = s.build ∧
    t.S.length = s.build.tableWords ∧ t.L.length = s.build.cMax ∧ t.masters = s.masters) ∧
  (∀ s : State, s.rstN = false → s.nextTurn = some .sequencer → step s = .next s.popTurn) ∧
  (∀ s : State, s.nextTurn = some .resetHigh → step s = .next { s.popTurn with rstN := true })

/-- A transaction while `rst_n` = 0 has no step, and this is the only stop: outside reset every turn has a next state, and
nothing is ever refused. -/
def Obligations.OnlyResetStopsTransactions : Prop :=
  ∀ s : State,
    (∀ r, step s ≠ .refused r) ∧
    ((∃ f, step s = .fault f) ↔
      s.rstN = false ∧ ∃ m line, s.nextTurn = some (.host m) ∧ s.nextLine m = some line) ∧
    (s.rstN = true → ∃ t, step s = .next t)

/-! ### Invariants and what is unobservable -/

/-- The invariant holds right after reset, for every build. The clauses about S, L, the working registers and the
snapshot rest on the model's own reset values (logs 1, 2). -/
def Obligations.InvariantHoldsAtReset : Prop := ∀ b : Build, Inv (State.resetOf b)

/-- Every step keeps the invariant, from every state that has it. -/
def Obligations.StepKeepsInvariant : Prop := ∀ s t : State, Inv s → step s = .next t → Inv t

/-- What the spec leaves unspecified is unobservable: from states that agree on all a rule may read, a step gives outcomes
that agree on it, and every response and the interrupt agree. -/
def Obligations.UnspecifiedStorageIsUnobservable : Prop :=
  ∀ s t : State, SameReadable s t →
    SameOutcome (step s) (step t) ∧ (∀ x : Txn, s.respond x = t.respond x) ∧ s.irq = t.irq

/-! ### Host scripts (30_encoding.md R96, R97; 44_command_sequencer.md R189) -/

/-- What a master's line does to its script: a line is performed once, a POLL answered OK again and again until the masked
data is `val`; a line whose response is what it requires leaves the script unfailed, any other fails it, a POLL answered ERR
too. That a failed script goes on with its next line, and that a POLL answered ERR is not performed again, are the model's
choice (log 9). -/
def Obligations.ScriptLines : Prop :=
  ∀ (s t : State) (m : Nat) (h : Master) (line : Line) (rest : List Line),
    s.rstN = true → s.nextTurn = some (.host m) → s.masters[m]? = some h → h.script = line :: rest →
    step s = .next t →
    ∃ g, t.masters[m]? = some g ∧ g.last = some (s.respond (lineTxn line)) ∧
      (∀ off data, line = .wr off data → g.script = rest ∧
        (g.failed = false ↔ h.failed = false ∧ s.respond (.memWrite off data) = .okWrite)) ∧
      (∀ off data, line = .wre off data → g.script = rest ∧
        (g.failed = false ↔ h.failed = false ∧ s.respond (.memWrite off data) = .err)) ∧
      (∀ off, line = .rd off → g.script = rest ∧
        (g.failed = false ↔ h.failed = false ∧ ∃ v, s.respond (.memRead off) = .okRead v)) ∧
      (∀ off data, line = .rdExpect off data → g.script = rest ∧
        (g.failed = false ↔ h.failed = false ∧ s.respond (.memRead off) = .okRead data)) ∧
      (∀ off, line = .rde off → g.script = rest ∧
        (g.failed = false ↔ h.failed = false ∧ s.respond (.memRead off) = .err)) ∧
      (∀ off mask val v, line = .poll off mask val → s.respond (.memRead off) = .okRead v →
        g.failed = h.failed ∧ (v &&& mask = val → g.script = rest) ∧ (v &&& mask ≠ val → g.script = line :: rest)) ∧
      (∀ off mask val, line = .poll off mask val → s.respond (.memRead off) = .err →
        g.failed = true ∧ g.script = rest) ∧
      (∀ k, k ≠ m → t.masters[k]? = s.masters[k]?)

/-- The pseudo-instructions KEY and BLK fill their windows with the bytes given, KEY the rest of its last word with 0x00; they
touch nothing outside the words they write, and every line of them answers OK. That a KEY has 1 to B_MAX bytes is the
model's choice (log 21). -/
def Obligations.KeyAndBlockPseudoInstructions : Prop :=
  ∀ (s : State) (bytes : List Byte), Memory.wf s.mem = true →
    ((Pseudo.key bytes).wellFormed s.build = true →
      (∀ x ∈ (expand (.key bytes)).map lineTxn, s.respond x = .okWrite) ∧
      ∃ t, busRun ((expand (.key bytes)).map lineTxn) s = .next t ∧ t = { s with mem := t.mem } ∧
        (∀ k, k < bytes.length → t.keyByte k = bytes.getD k 0#8) ∧
        (∀ k, bytes.length ≤ k → k < 4 * ((bytes.length + 3) / 4) → t.keyByte k = 0x00#8) ∧
        (∀ a, (a < keyBase ∨ keyBase + 4 * ((bytes.length + 3) / 4) ≤ a) →
          Memory.read t.mem a = Memory.read s.mem a)) ∧
    ((Pseudo.blk bytes).wellFormed s.build = true →
      (∀ x ∈ (expand (.blk bytes)).map lineTxn, s.respond x = .okWrite) ∧
      ∃ t, busRun ((expand (.blk bytes)).map lineTxn) s = .next t ∧ t = { s with mem := t.mem } ∧
        t.dinBlock = bytes ∧
        (∀ a, (a < dinBase ∨ dinBase + s.build.blkBytes ≤ a) → Memory.read t.mem a = Memory.read s.mem a))

/-- A run is over when every script has been performed and phase = IDLE: nothing moves any more; with an operation still in
flight the completion step is still taken. That the sequencer moves when `turns` is used up is the model's choice (log 6), as is
that a step with nobody to move changes nothing (log 13) and that with several masters a run is over only when every one's
script is performed (log 22). -/
def Obligations.EndOfRun : Prop :=
  ∀ s : State, s.turns = [] →
    (runOver s = true → step s = .next s) ∧
    (s.rstN = true → s.busy = true → step s = .next s.complete ∧ s.complete.busy = false)

/-- Elaboration: a core for legal parameters, with those parameters, and none for any other. -/
def Obligations.BuildElaboration : Prop :=
  ∀ w rMax bMax : Nat,
    ((w = 8 ∨ w = 16 ∨ w = 32 ∨ w = 64) ∧ rMax ≤ 255 ∧ bMax % 8 = 0 ∧ 8 ≤ bMax ∧ bMax ≤ 256 →
      ∃ b, Build.elaborate w rMax bMax = some b ∧ b.bits = w ∧ b.rMax.toNat = rMax ∧ b.bMax = bMax) ∧
    (¬((w = 8 ∨ w = 16 ∨ w = 32 ∨ w = 64) ∧ rMax ≤ 255 ∧ bMax % 8 = 0 ∧ 8 ≤ bMax ∧ bMax ≤ 256) →
      Build.elaborate w rMax bMax = none) ∧
    (Build.paramsWellFormed w rMax bMax = true ↔ ∃ b, Build.elaborate w rMax bMax = some b)
end

