-- ==== Sys2Proof/Laws/Memory.lean ====
section
/-! SUPPORT. The byte memory of the windows: a read after a write, the canonical form, and what a multi-byte write changes. -/

namespace Sys2Proof.Machine

open Sys2Proof

namespace Memory

@[simp] theorem read_nil (a : Nat) : read [] a = unlisted := rfl

/-- An offset below every listed one reads as an unlisted one. -/
theorem read_of_lt {lo : Nat} {m : Memory} (h : wfFrom lo m = true) {a : Nat} (ha : a < lo) : read m a = unlisted := by
  induction m generalizing lo with
  | nil => rfl
  | cons c m ih =>
    obtain ⟨k, x⟩ := c
    simp only [wfFrom, Bool.and_eq_true, decide_eq_true_eq] at h
    simp only [read]
    rw [if_neg (by omega)]
    exact ih h.2 (by omega)

theorem wfFrom_mono {lo lo' : Nat} {m : Memory} (h : wfFrom lo m = true) (hl : lo' ≤ lo) : wfFrom lo' m = true := by
  cases m with
  | nil => rfl
  | cons c m =>
    obtain ⟨k, x⟩ := c
    simp only [wfFrom, Bool.and_eq_true, decide_eq_true_eq] at h ⊢
    exact ⟨⟨by omega, h.1.2⟩, h.2⟩

/-- A write at or above `lo` keeps a canonical memory that starts at `lo`. -/
theorem wfFrom_write {lo : Nat} {m : Memory} (h : wfFrom lo m = true) {a : Nat} (ha : lo ≤ a) (v : Byte) :
    wfFrom lo (write m a v) = true := by
  induction m generalizing lo with
  | nil => by_cases hv : v = unlisted <;> simp [write, hv, wfFrom, ha]
  | cons c m ih =>
    obtain ⟨k, x⟩ := c
    simp only [wfFrom, Bool.and_eq_true, decide_eq_true_eq] at h
    simp only [write]
    split
    · rename_i hk
      split
      · exact wfFrom_mono h.2 (by omega)
      · rename_i hv
        simp only [wfFrom, Bool.and_eq_true, decide_eq_true_eq]
        exact ⟨⟨ha, hv⟩, hk ▸ h.2⟩
    · split
      · split
        · simp only [wfFrom, Bool.and_eq_true, decide_eq_true_eq]
          exact h
        · rename_i hv
          simp only [wfFrom, Bool.and_eq_true, decide_eq_true_eq]
          exact ⟨⟨ha, hv⟩, ⟨by omega, h.1.2⟩, h.2⟩
      · simp only [wfFrom, Bool.and_eq_true, decide_eq_true_eq]
        exact ⟨h.1, ih h.2 (by omega)⟩

/-- Every write keeps the canonical form. -/
theorem wf_write {m : Memory} (h : wf m = true) (a : Nat) (v : Byte) : wf (write m a v) = true :=
  wfFrom_write h (Nat.zero_le a) v

/-- A read after a write to the same offset gives the byte written. -/
theorem read_write_same {lo : Nat} {m : Memory} (h : wfFrom lo m = true) (a : Nat) (v : Byte) :
    read (write m a v) a = v := by
  induction m generalizing lo with
  | nil => by_cases hv : v = unlisted <;> simp [write, hv, read]
  | cons c m ih =>
    obtain ⟨k, x⟩ := c
    simp only [wfFrom, Bool.and_eq_true, decide_eq_true_eq] at h
    simp only [write]
    split
    · rename_i hk
      split
      · rename_i hv
        rw [read_of_lt h.2 (by omega), hv]
      · simp [read]
    · rename_i hk
      split
      · rename_i hlt
        split
        · rename_i hv
          rw [hv]
          simp only [read, if_neg hk]
          exact read_of_lt h.2 (by omega)
        · simp [read]
      · simp only [read, if_neg hk]
        exact ih h.2

/-- A write leaves every other offset alone, whatever the memory's form. -/
theorem read_write_ne (m : Memory) {a b : Nat} (v : Byte) (hab : b ≠ a) : read (write m a v) b = read m b := by
  induction m with
  | nil =>
    by_cases hv : v = unlisted
    · simp [write, hv]
    · simp [write, hv, read, hab.symm]
  | cons c m ih =>
    obtain ⟨k, x⟩ := c
    simp only [write]
    split
    · rename_i hk
      have hkb : k ≠ b := by omega
      split
      · simp [read, hkb]
      · simp [read, hkb, hab.symm]
    · split
      · split
        · rfl
        · simp [read, hab.symm]
      · simp only [read, ih]

/-- The entries of a memory after a write are old ones or the written one. -/
theorem mem_write {m : Memory} {a : Nat} {v : Byte} {c : Host.Cell} (h : c ∈ write m a v) : c = (a, v) ∨ c ∈ m := by
  induction m with
  | nil =>
    by_cases hv : v = unlisted
    · simp [write, hv] at h
    · simp [write, hv] at h
      exact .inl h
  | cons d m ih =>
    obtain ⟨k, x⟩ := d
    simp only [write] at h
    split at h
    · split at h
      · exact .inr (List.mem_cons_of_mem _ h)
      · rcases List.mem_cons.mp h with h | h
        · exact .inl h
        · exact .inr (List.mem_cons_of_mem _ h)
    · split at h
      · split at h
        · exact .inr h
        · rcases List.mem_cons.mp h with h | h
          · exact .inl h
          · exact .inr h
      · rcases List.mem_cons.mp h with h | h
        · exact .inr (h ▸ List.mem_cons_self)
        · rcases ih h with h | h
          · exact .inl h
          · exact .inr (List.mem_cons_of_mem _ h)

/-- Two canonical memories that read alike are the same list. -/
theorem eq_of_read {lo : Nat} {m n : Memory} (hm : wfFrom lo m = true) (hn : wfFrom lo n = true)
    (h : ∀ a, read m a = read n a) : m = n := by
  induction m generalizing lo n with
  | nil =>
    cases n with
    | nil => rfl
    | cons d n =>
      obtain ⟨k, x⟩ := d
      simp only [wfFrom, Bool.and_eq_true, decide_eq_true_eq] at hn
      have := h k
      simp [read] at this
      exact absurd this.symm hn.1.2
  | cons c m ih =>
    obtain ⟨k, x⟩ := c
    have hm' := hm
    simp only [wfFrom, Bool.and_eq_true, decide_eq_true_eq] at hm
    cases n with
    | nil =>
      have := h k
      simp [read] at this
      exact absurd this hm.1.2
    | cons d n =>
      obtain ⟨j, y⟩ := d
      have hn' := hn
      simp only [wfFrom, Bool.and_eq_true, decide_eq_true_eq] at hn
      have hkj : k = j := by
        rcases Nat.lt_trichotomy k j with hlt | heq | hgt
        · have h1 := h k
          rw [read_of_lt (m := (j, y) :: n) (lo := j)
            (by simp only [wfFrom, Bool.and_eq_true, decide_eq_true_eq]; exact ⟨⟨Nat.le_refl _, hn.1.2⟩, hn.2⟩) hlt] at h1
          simp [read] at h1
          exact absurd h1 hm.1.2
        · exact heq
        · have h1 := h j
          rw [read_of_lt (m := (k, x) :: m) (lo := k)
            (by simp only [wfFrom, Bool.and_eq_true, decide_eq_true_eq]; exact ⟨⟨Nat.le_refl _, hm.1.2⟩, hm.2⟩) hgt] at h1
          simp [read] at h1
          exact absurd h1.symm hn.1.2
      subst hkj
      have hx : x = y := by simpa [read] using h k
      subst hx
      rw [ih hm.2 hn.2]
      intro a
      by_cases ha : a = k
      · subst ha
        rw [read_of_lt hm.2 (Nat.lt_succ_self _), read_of_lt hn.2 (Nat.lt_succ_self _)]
      · simpa [read, Ne.symm ha] using h a

theorem wf_writeBytes {m : Memory} (h : wf m = true) (a : Nat) (vs : List Byte) : wf (writeBytes m a vs) = true := by
  induction vs generalizing m a with
  | nil => exact h
  | cons v vs ih => exact ih (wf_write h a v) (a + 1)

/-- A multi-byte write leaves every offset outside its bytes alone. -/
theorem read_writeBytes_out (m : Memory) (a : Nat) (vs : List Byte) {b : Nat} (hb : b < a ∨ a + vs.length ≤ b) :
    read (writeBytes m a vs) b = read m b := by
  induction vs generalizing m a with
  | nil => rfl
  | cons v vs ih =>
    simp only [List.length_cons] at hb
    simp only [writeBytes]
    rw [ih (write m a v) (a + 1) (by omega), read_write_ne m v (by omega)]

/-- Byte `k` of a multi-byte write reads back. -/
theorem read_writeBytes_in {m : Memory} (h : wf m = true) (a : Nat) (vs : List Byte) {k : Nat} (hk : k < vs.length) :
    read (writeBytes m a vs) (a + k) = vs[k] := by
  induction vs generalizing m a k with
  | nil => simp at hk
  | cons v vs ih =>
    simp only [writeBytes]
    cases k with
    | zero =>
      rw [Nat.add_zero, read_writeBytes_out _ _ _ (by omega)]
      simpa using read_write_same (lo := 0) h a v
    | succ k =>
      have := ih (m := write m a v) (wf_write h a v) (a + 1) (k := k) (by simpa using hk)
      simpa [Nat.add_assoc, Nat.add_comm 1 k] using this

/-- The entries of a memory after a multi-byte write are old ones or lie in the written bytes. -/
theorem mem_writeBytes {m : Memory} {a : Nat} {vs : List Byte} {c : Host.Cell} (h : c ∈ writeBytes m a vs) :
    (a ≤ c.1 ∧ c.1 < a + vs.length) ∨ c ∈ m := by
  induction vs generalizing m a with
  | nil => exact .inr h
  | cons v vs ih =>
    rcases ih h with h | h
    · simp only [List.length_cons]
      exact .inl ⟨by omega, by omega⟩
    · rcases mem_write h with h | h
      · subst h
        simp only [List.length_cons]
        exact .inl ⟨Nat.le_refl _, by omega⟩
      · exact .inr h

@[simp] theorem length_readBytes (m : Memory) (a n : Nat) : (readBytes m a n).length = n := by
  induction n generalizing a with
  | zero => rfl
  | succ n ih => simp [readBytes, ih]

theorem getElem_readBytes (m : Memory) (a n : Nat) {k : Nat} (hk : k < (readBytes m a n).length) :
    (readBytes m a n)[k] = read m (a + k) := by
  induction n generalizing a k with
  | zero => simp [readBytes] at hk
  | succ n ih =>
    cases k with
    | zero => simp [readBytes]
    | succ k =>
      simp only [readBytes, List.getElem_cons_succ]
      rw [ih]
      congr 1
      omega

/-- A window read back after it was written whole. -/
theorem readBytes_writeBytes {m : Memory} (h : wf m = true) (a : Nat) (vs : List Byte) :
    readBytes (writeBytes m a vs) a vs.length = vs := by
  apply List.ext_getElem (by simp)
  intro k h1 h2
  rw [getElem_readBytes, read_writeBytes_in h a vs h2]

end Memory

end Sys2Proof.Machine
end

