-- ==== Sys2Proof/Laws/Operands.lean ====
section
/-! SUPPORT. Lengths, containers, byte order and modular arithmetic: what the operand assembly, the table
loops and the draws have of each. -/

namespace Sys2Proof.Machine

open Sys2Proof

/-- The four widths. -/
theorem bits_cases (b : Build) : b.bits = 8 ∨ b.bits = 16 ∨ b.bits = 32 ∨ b.bits = 64 := by
  cases h : b.W <;> simp [Build.bits, h, Width.bits]

theorem bits_le (b : Build) : b.bits ≤ 64 := by rcases bits_cases b with h | h | h | h <;> omega

theorem u_mul (b : Build) : b.u * 8 = b.bits := by
  rcases bits_cases b with h | h | h | h <;> simp [Build.u, h]

theorem u_pos (b : Build) : 0 < b.u := by
  rcases bits_cases b with h | h | h | h <;> simp [Build.u, h]

/-- A Word comes back from its container. -/
@[simp] theorem load_store {w : Nat} (h : w ≤ 64) (x : Word w) : load w (store x) = x := by
  apply BitVec.eq_of_toNat_eq
  have hx := x.isLt
  have h2 : 2 ^ w ≤ 2 ^ 64 := Nat.pow_le_pow_right (by decide) h
  simp only [load, store, BitVec.toNat_setWidth]
  rw [Nat.mod_eq_of_lt (by omega : x.toNat < 2 ^ 64), Nat.mod_eq_of_lt hx]

theorem store_toNat_lt {w : Nat} (x : Word w) : (store x).toNat < 2 ^ w := by
  have hx := x.isLt
  have := Nat.mod_le x.toNat (2 ^ 64)
  simp only [store, BitVec.toNat_setWidth]
  omega

theorem map_load_store {w : Nat} (h : w ≤ 64) (l : List (Word w)) : (l.map store).map (load w) = l := by
  rw [List.map_map]
  conv => rhs; rw [← List.map_id l]
  exact List.map_congr_left fun x _ => load_store h x

@[simp] theorem length_drawS (b : Build) (d lo n : Nat) : (drawS b d lo n).length = n := by simp [drawS]

@[simp] theorem length_drawL (b : Build) (d : Nat) : (drawL b d).length = b.cMax := by simp [drawL]

@[simp] theorem length_drawSnapBlk (b : Build) (d : Nat) : (drawSnapBlk b d).length = b.blkBytes := by
  simp [drawSnapBlk]

@[simp] theorem length_dinBlock (s : State) : s.dinBlock.length = s.build.blkBytes := by simp [State.dinBlock]

@[simp] theorem length_doutBlock (s : State) : s.doutBlock.length = s.build.blkBytes := by simp [State.doutBlock]

@[simp] theorem length_packKey (s : State) (n : Nat) : (s.packKey n).length = s.build.keyWords n := by
  simp [State.packKey]

@[simp] theorem length_initFrom {w : Nat} (q x : Word w) (n : Nat) : (initFrom q x n).length = n := by
  induction n generalizing x with
  | zero => rfl
  | succ n ih => simp [initFrom, ih]

@[simp] theorem length_mixStep_S {w : Nat} (T c : Nat) (x : Mix w) : (mixStep T c x).S.length = x.S.length := by
  simp [mixStep]

@[simp] theorem length_mixStep_L {w : Nat} (T c : Nat) (x : Mix w) : (mixStep T c x).L.length = x.L.length := by
  simp [mixStep]

@[simp] theorem length_mixLoop_S {w : Nat} (T c n : Nat) (x : Mix w) : (mixLoop T c n x).S.length = x.S.length := by
  induction n generalizing x with
  | zero => rfl
  | succ n ih => simp [mixLoop, ih]

@[simp] theorem length_mixLoop_L {w : Nat} (T c n : Nat) (x : Mix w) : (mixLoop T c n x).L.length = x.L.length := by
  induction n generalizing x with
  | zero => rfl
  | succ n ih => simp [mixLoop, ih]

/-- The RoundKeyTable has T = 2R+4 entries, whatever the key. -/
@[simp] theorem length_roundKeyTable (W : Width) (R c : Nat) (L : List (Word W.bits)) :
    (roundKeyTable W R c L).length = tableLen R := by
  simp [roundKeyTable, mixKey, initTable]

@[simp] theorem length_scheduledTable (s : State) : s.scheduledTable.length = tableLen s.snapR.toNat := by
  simp [State.scheduledTable]

@[simp] theorem length_bytesOfWord {w : Nat} (u : Nat) (x : Word w) : (bytesOfWord u x).length = u := by
  simp [bytesOfWord]

@[simp] theorem length_bytesOfBlock {w : Nat} (x : Block w) : (bytesOfBlock x).length = 4 * (w / 8) := by
  simp [bytesOfBlock]
  omega

/-- A key that fits the buffer fits L: c ≤ C_MAX. -/
theorem keyWords_le (b : Build) {n : Nat} (hn : n ≤ b.bMax) : b.keyWords n ≤ b.cMax := by
  have h8 : b.bMax = 8 * (b.bUnits.val + 1) := rfl
  rcases bits_cases b with h | h | h | h <;>
    simp only [Build.keyWords, Build.cMax, Build.u, h] <;> omega

/-- The block in DINBUF, byte by byte. -/
theorem dinBlock_eq (s : State) : s.dinBlock = (List.range s.build.blkBytes).map s.dinByte := by
  apply List.ext_getElem (by simp)
  intro k h1 h2
  simp [State.dinBlock, Memory.getElem_readBytes, State.dinByte]

/-- The result in DOUTBUF, byte by byte. -/
theorem doutBlock_eq (s : State) : s.doutBlock = (List.range s.build.blkBytes).map s.doutByte := by
  apply List.ext_getElem (by simp)
  intro k h1 h2
  simp [State.doutBlock, Memory.getElem_readBytes, State.doutByte]

/-- A little-endian value fits its bytes. -/
theorem leNat_lt (l : List Byte) : leNat l < 256 ^ l.length := by
  induction l with
  | nil => simp [leNat]
  | cons x l ih =>
    have := x.isLt
    simp only [leNat, List.length_cons, pow_succ]
    omega

/-- Byte `k` of a little-endian value. -/
theorem leNat_byte (l : List Byte) (k : Nat) : leNat l / 2 ^ (8*k) % 256 = (l.getD k 0#8).toNat := by
  induction l generalizing k with
  | nil => simp [leNat]
  | cons x l ih =>
    have hx := x.isLt
    cases k with
    | zero => simp only [leNat]; simp; omega
    | succ k =>
      simp only [leNat, List.getD_cons_succ]
      rw [← ih k, show 8 * (k+1) = 8 + 8*k by ring, pow_add, ← Nat.div_div_eq_div_mul]
      congr 2
      omega

/-- Byte `k` of the Word of a byte list. -/
theorem extract_leNat {w : Nat} (l : List Byte) (k : Nat) (hk : 8*k + 8 ≤ w) :
    (BitVec.ofNat w (leNat l)).extractLsb' (8*k) 8 = l.getD k 0#8 := by
  apply BitVec.eq_of_toNat_eq
  rw [← leNat_byte, BitVec.extractLsb'_toNat, BitVec.toNat_ofNat, Nat.shiftRight_eq_div_pow]
  obtain ⟨d, rfl⟩ : ∃ d, w = 8*k + (8 + d) := ⟨w - (8*k+8), by omega⟩
  rw [pow_add 2 (8*k), Nat.mod_mul_right_div_self, pow_add 2 8, Nat.mod_mul_right_mod]
  norm_num

/-- Two Words with the same bytes are equal. -/
theorem ext_bytes {w : Nat} {x y : Word w} (h : ∀ k, 8 * k < w → x.extractLsb' (8*k) 8 = y.extractLsb' (8*k) 8) : x = y := by
  apply BitVec.eq_of_getLsbD_eq
  intro i hi
  have := congrArg (fun v => v.getLsbD (i % 8)) (h (i/8) (by omega))
  simp only [BitVec.getLsbD_extractLsb'] at this
  have h8 := Nat.mod_lt i (by omega : 8 > 0)
  rw [show 8 * (i/8) + i % 8 = i by omega] at this
  simpa [h8] using this

/-- Byte `k` of Word `m` of a byte array. -/
theorem wordLE_byte (w : Nat) (X : List Byte) (m k : Nat) (hk : 8*k+8 ≤ w) :
    (wordLE w X m).extractLsb' (8*k) 8 = X.getD (m*(w/8)+k) 0#8 := by
  rw [wordLE, extract_leNat _ _ hk]
  have : k < w/8 := by omega
  simp [List.getD, this, List.getElem?_drop]

/-- `+w` is the addition of bit vectors. -/
theorem addMod_eq {w} (a b : Word w) : addMod a b = a + b := by
  apply BitVec.eq_of_toNat_eq; simp [addMod]

/-- `−w` is the subtraction of bit vectors. -/
theorem subMod_eq {w} (a b : Word w) : subMod a b = a - b := by
  apply BitVec.eq_of_toInt_eq
  simp only [subMod, BitVec.toInt_ofInt, BitVec.toInt_sub]
  rw [Int.sub_bmod, Int.sub_bmod a.toInt]
  congr 1
  simp [BitVec.toInt_eq_toNat_bmod]

/-- `*w` is the multiplication of bit vectors. -/
theorem mulMod_eq {w} (a b : Word w) : mulMod a b = a * b := by
  apply BitVec.eq_of_toNat_eq; simp [mulMod]

/-- An entry of the loaded table. -/
theorem entry_map_load (w : Nat) (S : List Stored) (k : Nat) : entry (S.map (load w)) k = load w (S.getD k 0) := by
  simp only [entry, List.getD]
  rw [List.getElem?_map]
  cases S[k]? <;> simp [load]

end Sys2Proof.Machine
end

