-- ==== Sys2Proof/Laws/PerInstr.lean ====
section
/-! SUPPORT. What holds of every command as syntax, one lemma per constructor. -/

/-- A command is well formed, its word has RSV = 0 and its OP, and the word and its four bytes decode back to it
(30_encoding.md R90 to R93). -/
def Sys2Proof.Laws.Encoding.Statement (i : Sys2Proof.Instr) : Prop :=
  i.wellFormed = true ∧ Sys2Proof.rsvField (Sys2Proof.encode i) = 0#28 ∧
    Sys2Proof.opField (Sys2Proof.encode i) = Sys2Proof.opcode i ∧
    Sys2Proof.decode (Sys2Proof.encode i) = .ok i ∧
    ∀ rest, Sys2Proof.decodeBytes (Sys2Proof.encodeBytes i ++ rest) = .ok (i, rest)

theorem Sys2Proof.Laws.Encoding.schedule : Sys2Proof.Laws.Encoding.Statement .schedule :=
  ⟨rfl, by decide, by decide, by rfl, fun _ => rfl⟩

theorem Sys2Proof.Laws.Encoding.encrypt : Sys2Proof.Laws.Encoding.Statement .encrypt :=
  ⟨rfl, by decide, by decide, by rfl, fun _ => rfl⟩

theorem Sys2Proof.Laws.Encoding.decrypt : Sys2Proof.Laws.Encoding.Statement .decrypt :=
  ⟨rfl, by decide, by decide, by rfl, fun _ => rfl⟩
end

