-- ==== Sys2Proof/Laws/State.lean ====
section
/-! SUPPORT. One lemma per field per update of State, all true by rfl: what each update writes, and that it leaves every
other field alone. -/

namespace Sys2Proof.Machine

open Sys2Proof

variable (s : State)

/-! ### State.reject -/

@[simp] theorem State.reject_build : (s.reject).build = s.build := rfl
@[simp] theorem State.reject_phase : (s.reject).phase = s.phase := rfl
@[simp] theorem State.reject_keyValid : (s.reject).keyValid = s.keyValid := rfl
@[simp] theorem State.reject_ctxR : (s.reject).ctxR = s.ctxR := rfl
@[simp] theorem State.reject_ctxB : (s.reject).ctxB = s.ctxB := rfl
@[simp] theorem State.reject_S : (s.reject).S = s.S := rfl
@[simp] theorem State.reject_L : (s.reject).L = s.L := rfl
@[simp] theorem State.reject_snapR : (s.reject).snapR = s.snapR := rfl
@[simp] theorem State.reject_snapB : (s.reject).snapB = s.snapB := rfl
@[simp] theorem State.reject_snapBlk : (s.reject).snapBlk = s.snapBlk := rfl
@[simp] theorem State.reject_blockRegs : (s.reject).blockRegs = s.blockRegs := rfl
@[simp] theorem State.reject_keyRegs : (s.reject).keyRegs = s.keyRegs := rfl
@[simp] theorem State.reject_rounds : (s.reject).rounds = s.rounds := rfl
@[simp] theorem State.reject_keylen : (s.reject).keylen = s.keylen := rfl
@[simp] theorem State.reject_done : (s.reject).done = s.done := rfl
@[simp] theorem State.reject_err : (s.reject).err = s.err := rfl
@[simp] theorem State.reject_errcode : (s.reject).errcode = s.errcode := rfl
@[simp] theorem State.reject_rejected : (s.reject).rejected = true := rfl
@[simp] theorem State.reject_lastOp : (s.reject).lastOp = s.lastOp := rfl
@[simp] theorem State.reject_doneIe : (s.reject).doneIe = s.doneIe := rfl
@[simp] theorem State.reject_errIe : (s.reject).errIe = s.errIe := rfl
@[simp] theorem State.reject_rejIe : (s.reject).rejIe = s.rejIe := rfl
@[simp] theorem State.reject_mem : (s.reject).mem = s.mem := rfl
@[simp] theorem State.reject_rstN : (s.reject).rstN = s.rstN := rfl
@[simp] theorem State.reject_masters : (s.reject).masters = s.masters := rfl
@[simp] theorem State.reject_turns : (s.reject).turns = s.turns := rfl
@[simp] theorem State.reject_draws : (s.reject).draws = s.draws := rfl

/-! ### State.issueEffects -/

@[simp] theorem State.issueEffects_build (op : BitVec 4) : (s.issueEffects op).build = s.build := rfl
@[simp] theorem State.issueEffects_phase (op : BitVec 4) : (s.issueEffects op).phase = s.phase := rfl
@[simp] theorem State.issueEffects_keyValid (op : BitVec 4) : (s.issueEffects op).keyValid = s.keyValid := rfl
@[simp] theorem State.issueEffects_ctxR (op : BitVec 4) : (s.issueEffects op).ctxR = s.ctxR := rfl
@[simp] theorem State.issueEffects_ctxB (op : BitVec 4) : (s.issueEffects op).ctxB = s.ctxB := rfl
@[simp] theorem State.issueEffects_S (op : BitVec 4) : (s.issueEffects op).S = s.S := rfl
@[simp] theorem State.issueEffects_L (op : BitVec 4) : (s.issueEffects op).L = s.L := rfl
@[simp] theorem State.issueEffects_snapR (op : BitVec 4) : (s.issueEffects op).snapR = s.snapR := rfl
@[simp] theorem State.issueEffects_snapB (op : BitVec 4) : (s.issueEffects op).snapB = s.snapB := rfl
@[simp] theorem State.issueEffects_snapBlk (op : BitVec 4) : (s.issueEffects op).snapBlk = s.snapBlk := rfl
@[simp] theorem State.issueEffects_blockRegs (op : BitVec 4) : (s.issueEffects op).blockRegs = s.blockRegs := rfl
@[simp] theorem State.issueEffects_keyRegs (op : BitVec 4) : (s.issueEffects op).keyRegs = s.keyRegs := rfl
@[simp] theorem State.issueEffects_rounds (op : BitVec 4) : (s.issueEffects op).rounds = s.rounds := rfl
@[simp] theorem State.issueEffects_keylen (op : BitVec 4) : (s.issueEffects op).keylen = s.keylen := rfl
@[simp] theorem State.issueEffects_done (op : BitVec 4) : (s.issueEffects op).done = false := rfl
@[simp] theorem State.issueEffects_err (op : BitVec 4) : (s.issueEffects op).err = false := rfl
@[simp] theorem State.issueEffects_errcode (op : BitVec 4) : (s.issueEffects op).errcode = .none := rfl
@[simp] theorem State.issueEffects_rejected (op : BitVec 4) : (s.issueEffects op).rejected = s.rejected := rfl
@[simp] theorem State.issueEffects_lastOp (op : BitVec 4) : (s.issueEffects op).lastOp = op := rfl
@[simp] theorem State.issueEffects_doneIe (op : BitVec 4) : (s.issueEffects op).doneIe = s.doneIe := rfl
@[simp] theorem State.issueEffects_errIe (op : BitVec 4) : (s.issueEffects op).errIe = s.errIe := rfl
@[simp] theorem State.issueEffects_rejIe (op : BitVec 4) : (s.issueEffects op).rejIe = s.rejIe := rfl
@[simp] theorem State.issueEffects_mem (op : BitVec 4) : (s.issueEffects op).mem = s.mem := rfl
@[simp] theorem State.issueEffects_rstN (op : BitVec 4) : (s.issueEffects op).rstN = s.rstN := rfl
@[simp] theorem State.issueEffects_masters (op : BitVec 4) : (s.issueEffects op).masters = s.masters := rfl
@[simp] theorem State.issueEffects_turns (op : BitVec 4) : (s.issueEffects op).turns = s.turns := rfl
@[simp] theorem State.issueEffects_draws (op : BitVec 4) : (s.issueEffects op).draws = s.draws := rfl

/-! ### State.raiseError -/

@[simp] theorem State.raiseError_build (code : ErrorCode) : (s.raiseError code).build = s.build := rfl
@[simp] theorem State.raiseError_phase (code : ErrorCode) : (s.raiseError code).phase = s.phase := rfl
@[simp] theorem State.raiseError_keyValid (code : ErrorCode) : (s.raiseError code).keyValid = s.keyValid := rfl
@[simp] theorem State.raiseError_ctxR (code : ErrorCode) : (s.raiseError code).ctxR = s.ctxR := rfl
@[simp] theorem State.raiseError_ctxB (code : ErrorCode) : (s.raiseError code).ctxB = s.ctxB := rfl
@[simp] theorem State.raiseError_S (code : ErrorCode) : (s.raiseError code).S = s.S := rfl
@[simp] theorem State.raiseError_L (code : ErrorCode) : (s.raiseError code).L = s.L := rfl
@[simp] theorem State.raiseError_snapR (code : ErrorCode) : (s.raiseError code).snapR = s.snapR := rfl
@[simp] theorem State.raiseError_snapB (code : ErrorCode) : (s.raiseError code).snapB = s.snapB := rfl
@[simp] theorem State.raiseError_snapBlk (code : ErrorCode) : (s.raiseError code).snapBlk = s.snapBlk := rfl
@[simp] theorem State.raiseError_blockRegs (code : ErrorCode) : (s.raiseError code).blockRegs = s.blockRegs := rfl
@[simp] theorem State.raiseError_keyRegs (code : ErrorCode) : (s.raiseError code).keyRegs = s.keyRegs := rfl
@[simp] theorem State.raiseError_rounds (code : ErrorCode) : (s.raiseError code).rounds = s.rounds := rfl
@[simp] theorem State.raiseError_keylen (code : ErrorCode) : (s.raiseError code).keylen = s.keylen := rfl
@[simp] theorem State.raiseError_done (code : ErrorCode) : (s.raiseError code).done = s.done := rfl
@[simp] theorem State.raiseError_err (code : ErrorCode) : (s.raiseError code).err = true := rfl
@[simp] theorem State.raiseError_errcode (code : ErrorCode) : (s.raiseError code).errcode = code := rfl
@[simp] theorem State.raiseError_rejected (code : ErrorCode) : (s.raiseError code).rejected = s.rejected := rfl
@[simp] theorem State.raiseError_lastOp (code : ErrorCode) : (s.raiseError code).lastOp = s.lastOp := rfl
@[simp] theorem State.raiseError_doneIe (code : ErrorCode) : (s.raiseError code).doneIe = s.doneIe := rfl
@[simp] theorem State.raiseError_errIe (code : ErrorCode) : (s.raiseError code).errIe = s.errIe := rfl
@[simp] theorem State.raiseError_rejIe (code : ErrorCode) : (s.raiseError code).rejIe = s.rejIe := rfl
@[simp] theorem State.raiseError_mem (code : ErrorCode) : (s.raiseError code).mem = s.mem := rfl
@[simp] theorem State.raiseError_rstN (code : ErrorCode) : (s.raiseError code).rstN = s.rstN := rfl
@[simp] theorem State.raiseError_masters (code : ErrorCode) : (s.raiseError code).masters = s.masters := rfl
@[simp] theorem State.raiseError_turns (code : ErrorCode) : (s.raiseError code).turns = s.turns := rfl
@[simp] theorem State.raiseError_draws (code : ErrorCode) : (s.raiseError code).draws = s.draws := rfl

/-! ### State.writeStatus -/

@[simp] theorem State.writeStatus_build (v : BusWord) : (s.writeStatus v).build = s.build := rfl
@[simp] theorem State.writeStatus_phase (v : BusWord) : (s.writeStatus v).phase = s.phase := rfl
@[simp] theorem State.writeStatus_keyValid (v : BusWord) : (s.writeStatus v).keyValid = s.keyValid := rfl
@[simp] theorem State.writeStatus_ctxR (v : BusWord) : (s.writeStatus v).ctxR = s.ctxR := rfl
@[simp] theorem State.writeStatus_ctxB (v : BusWord) : (s.writeStatus v).ctxB = s.ctxB := rfl
@[simp] theorem State.writeStatus_S (v : BusWord) : (s.writeStatus v).S = s.S := rfl
@[simp] theorem State.writeStatus_L (v : BusWord) : (s.writeStatus v).L = s.L := rfl
@[simp] theorem State.writeStatus_snapR (v : BusWord) : (s.writeStatus v).snapR = s.snapR := rfl
@[simp] theorem State.writeStatus_snapB (v : BusWord) : (s.writeStatus v).snapB = s.snapB := rfl
@[simp] theorem State.writeStatus_snapBlk (v : BusWord) : (s.writeStatus v).snapBlk = s.snapBlk := rfl
@[simp] theorem State.writeStatus_blockRegs (v : BusWord) : (s.writeStatus v).blockRegs = s.blockRegs := rfl
@[simp] theorem State.writeStatus_keyRegs (v : BusWord) : (s.writeStatus v).keyRegs = s.keyRegs := rfl
@[simp] theorem State.writeStatus_rounds (v : BusWord) : (s.writeStatus v).rounds = s.rounds := rfl
@[simp] theorem State.writeStatus_keylen (v : BusWord) : (s.writeStatus v).keylen = s.keylen := rfl
@[simp] theorem State.writeStatus_done (v : BusWord) : (s.writeStatus v).done = (s.done && !v.getLsbD 2) := rfl
@[simp] theorem State.writeStatus_err (v : BusWord) : (s.writeStatus v).err = (s.err && !v.getLsbD 3) := rfl
@[simp] theorem State.writeStatus_errcode (v : BusWord) :
    (s.writeStatus v).errcode = (if v.getLsbD 3 then .none else s.errcode) := rfl
@[simp] theorem State.writeStatus_rejected (v : BusWord) : (s.writeStatus v).rejected = (s.rejected && !v.getLsbD 8) := rfl
@[simp] theorem State.writeStatus_lastOp (v : BusWord) : (s.writeStatus v).lastOp = s.lastOp := rfl
@[simp] theorem State.writeStatus_doneIe (v : BusWord) : (s.writeStatus v).doneIe = s.doneIe := rfl
@[simp] theorem State.writeStatus_errIe (v : BusWord) : (s.writeStatus v).errIe = s.errIe := rfl
@[simp] theorem State.writeStatus_rejIe (v : BusWord) : (s.writeStatus v).rejIe = s.rejIe := rfl
@[simp] theorem State.writeStatus_mem (v : BusWord) : (s.writeStatus v).mem = s.mem := rfl
@[simp] theorem State.writeStatus_rstN (v : BusWord) : (s.writeStatus v).rstN = s.rstN := rfl
@[simp] theorem State.writeStatus_masters (v : BusWord) : (s.writeStatus v).masters = s.masters := rfl
@[simp] theorem State.writeStatus_turns (v : BusWord) : (s.writeStatus v).turns = s.turns := rfl
@[simp] theorem State.writeStatus_draws (v : BusWord) : (s.writeStatus v).draws = s.draws := rfl

/-! ### State.writeIrqEn -/

@[simp] theorem State.writeIrqEn_build (v : BusWord) : (s.writeIrqEn v).build = s.build := rfl
@[simp] theorem State.writeIrqEn_phase (v : BusWord) : (s.writeIrqEn v).phase = s.phase := rfl
@[simp] theorem State.writeIrqEn_keyValid (v : BusWord) : (s.writeIrqEn v).keyValid = s.keyValid := rfl
@[simp] theorem State.writeIrqEn_ctxR (v : BusWord) : (s.writeIrqEn v).ctxR = s.ctxR := rfl
@[simp] theorem State.writeIrqEn_ctxB (v : BusWord) : (s.writeIrqEn v).ctxB = s.ctxB := rfl
@[simp] theorem State.writeIrqEn_S (v : BusWord) : (s.writeIrqEn v).S = s.S := rfl
@[simp] theorem State.writeIrqEn_L (v : BusWord) : (s.writeIrqEn v).L = s.L := rfl
@[simp] theorem State.writeIrqEn_snapR (v : BusWord) : (s.writeIrqEn v).snapR = s.snapR := rfl
@[simp] theorem State.writeIrqEn_snapB (v : BusWord) : (s.writeIrqEn v).snapB = s.snapB := rfl
@[simp] theorem State.writeIrqEn_snapBlk (v : BusWord) : (s.writeIrqEn v).snapBlk = s.snapBlk := rfl
@[simp] theorem State.writeIrqEn_blockRegs (v : BusWord) : (s.writeIrqEn v).blockRegs = s.blockRegs := rfl
@[simp] theorem State.writeIrqEn_keyRegs (v : BusWord) : (s.writeIrqEn v).keyRegs = s.keyRegs := rfl
@[simp] theorem State.writeIrqEn_rounds (v : BusWord) : (s.writeIrqEn v).rounds = s.rounds := rfl
@[simp] theorem State.writeIrqEn_keylen (v : BusWord) : (s.writeIrqEn v).keylen = s.keylen := rfl
@[simp] theorem State.writeIrqEn_done (v : BusWord) : (s.writeIrqEn v).done = s.done := rfl
@[simp] theorem State.writeIrqEn_err (v : BusWord) : (s.writeIrqEn v).err = s.err := rfl
@[simp] theorem State.writeIrqEn_errcode (v : BusWord) : (s.writeIrqEn v).errcode = s.errcode := rfl
@[simp] theorem State.writeIrqEn_rejected (v : BusWord) : (s.writeIrqEn v).rejected = s.rejected := rfl
@[simp] theorem State.writeIrqEn_lastOp (v : BusWord) : (s.writeIrqEn v).lastOp = s.lastOp := rfl
@[simp] theorem State.writeIrqEn_doneIe (v : BusWord) : (s.writeIrqEn v).doneIe = v.getLsbD 0 := rfl
@[simp] theorem State.writeIrqEn_errIe (v : BusWord) : (s.writeIrqEn v).errIe = v.getLsbD 1 := rfl
@[simp] theorem State.writeIrqEn_rejIe (v : BusWord) : (s.writeIrqEn v).rejIe = v.getLsbD 2 := rfl
@[simp] theorem State.writeIrqEn_mem (v : BusWord) : (s.writeIrqEn v).mem = s.mem := rfl
@[simp] theorem State.writeIrqEn_rstN (v : BusWord) : (s.writeIrqEn v).rstN = s.rstN := rfl
@[simp] theorem State.writeIrqEn_masters (v : BusWord) : (s.writeIrqEn v).masters = s.masters := rfl
@[simp] theorem State.writeIrqEn_turns (v : BusWord) : (s.writeIrqEn v).turns = s.turns := rfl
@[simp] theorem State.writeIrqEn_draws (v : BusWord) : (s.writeIrqEn v).draws = s.draws := rfl

/-! ### State.writeConfig -/

@[simp] theorem State.writeConfig_build (v : BusWord) : (s.writeConfig v).build = s.build := rfl
@[simp] theorem State.writeConfig_phase (v : BusWord) : (s.writeConfig v).phase = s.phase := rfl
@[simp] theorem State.writeConfig_keyValid (v : BusWord) : (s.writeConfig v).keyValid = s.keyValid := rfl
@[simp] theorem State.writeConfig_ctxR (v : BusWord) : (s.writeConfig v).ctxR = s.ctxR := rfl
@[simp] theorem State.writeConfig_ctxB (v : BusWord) : (s.writeConfig v).ctxB = s.ctxB := rfl
@[simp] theorem State.writeConfig_S (v : BusWord) : (s.writeConfig v).S = s.S := rfl
@[simp] theorem State.writeConfig_L (v : BusWord) : (s.writeConfig v).L = s.L := rfl
@[simp] theorem State.writeConfig_snapR (v : BusWord) : (s.writeConfig v).snapR = s.snapR := rfl
@[simp] theorem State.writeConfig_snapB (v : BusWord) : (s.writeConfig v).snapB = s.snapB := rfl
@[simp] theorem State.writeConfig_snapBlk (v : BusWord) : (s.writeConfig v).snapBlk = s.snapBlk := rfl
@[simp] theorem State.writeConfig_blockRegs (v : BusWord) : (s.writeConfig v).blockRegs = s.blockRegs := rfl
@[simp] theorem State.writeConfig_keyRegs (v : BusWord) : (s.writeConfig v).keyRegs = s.keyRegs := rfl
@[simp] theorem State.writeConfig_rounds (v : BusWord) : (s.writeConfig v).rounds = v.extractLsb' 0 8 := rfl
@[simp] theorem State.writeConfig_keylen (v : BusWord) : (s.writeConfig v).keylen = v.extractLsb' 16 16 := rfl
@[simp] theorem State.writeConfig_done (v : BusWord) : (s.writeConfig v).done = s.done := rfl
@[simp] theorem State.writeConfig_err (v : BusWord) : (s.writeConfig v).err = s.err := rfl
@[simp] theorem State.writeConfig_errcode (v : BusWord) : (s.writeConfig v).errcode = s.errcode := rfl
@[simp] theorem State.writeConfig_rejected (v : BusWord) : (s.writeConfig v).rejected = s.rejected := rfl
@[simp] theorem State.writeConfig_lastOp (v : BusWord) : (s.writeConfig v).lastOp = s.lastOp := rfl
@[simp] theorem State.writeConfig_doneIe (v : BusWord) : (s.writeConfig v).doneIe = s.doneIe := rfl
@[simp] theorem State.writeConfig_errIe (v : BusWord) : (s.writeConfig v).errIe = s.errIe := rfl
@[simp] theorem State.writeConfig_rejIe (v : BusWord) : (s.writeConfig v).rejIe = s.rejIe := rfl
@[simp] theorem State.writeConfig_mem (v : BusWord) : (s.writeConfig v).mem = s.mem := rfl
@[simp] theorem State.writeConfig_rstN (v : BusWord) : (s.writeConfig v).rstN = s.rstN := rfl
@[simp] theorem State.writeConfig_masters (v : BusWord) : (s.writeConfig v).masters = s.masters := rfl
@[simp] theorem State.writeConfig_turns (v : BusWord) : (s.writeConfig v).turns = s.turns := rfl
@[simp] theorem State.writeConfig_draws (v : BusWord) : (s.writeConfig v).draws = s.draws := rfl

/-! ### State.storeWord -/

@[simp] theorem State.storeWord_build (a : Nat) (v : BusWord) : (s.storeWord a v).build = s.build := rfl
@[simp] theorem State.storeWord_phase (a : Nat) (v : BusWord) : (s.storeWord a v).phase = s.phase := rfl
@[simp] theorem State.storeWord_keyValid (a : Nat) (v : BusWord) : (s.storeWord a v).keyValid = s.keyValid := rfl
@[simp] theorem State.storeWord_ctxR (a : Nat) (v : BusWord) : (s.storeWord a v).ctxR = s.ctxR := rfl
@[simp] theorem State.storeWord_ctxB (a : Nat) (v : BusWord) : (s.storeWord a v).ctxB = s.ctxB := rfl
@[simp] theorem State.storeWord_S (a : Nat) (v : BusWord) : (s.storeWord a v).S = s.S := rfl
@[simp] theorem State.storeWord_L (a : Nat) (v : BusWord) : (s.storeWord a v).L = s.L := rfl
@[simp] theorem State.storeWord_snapR (a : Nat) (v : BusWord) : (s.storeWord a v).snapR = s.snapR := rfl
@[simp] theorem State.storeWord_snapB (a : Nat) (v : BusWord) : (s.storeWord a v).snapB = s.snapB := rfl
@[simp] theorem State.storeWord_snapBlk (a : Nat) (v : BusWord) : (s.storeWord a v).snapBlk = s.snapBlk := rfl
@[simp] theorem State.storeWord_blockRegs (a : Nat) (v : BusWord) : (s.storeWord a v).blockRegs = s.blockRegs := rfl
@[simp] theorem State.storeWord_keyRegs (a : Nat) (v : BusWord) : (s.storeWord a v).keyRegs = s.keyRegs := rfl
@[simp] theorem State.storeWord_rounds (a : Nat) (v : BusWord) : (s.storeWord a v).rounds = s.rounds := rfl
@[simp] theorem State.storeWord_keylen (a : Nat) (v : BusWord) : (s.storeWord a v).keylen = s.keylen := rfl
@[simp] theorem State.storeWord_done (a : Nat) (v : BusWord) : (s.storeWord a v).done = s.done := rfl
@[simp] theorem State.storeWord_err (a : Nat) (v : BusWord) : (s.storeWord a v).err = s.err := rfl
@[simp] theorem State.storeWord_errcode (a : Nat) (v : BusWord) : (s.storeWord a v).errcode = s.errcode := rfl
@[simp] theorem State.storeWord_rejected (a : Nat) (v : BusWord) : (s.storeWord a v).rejected = s.rejected := rfl
@[simp] theorem State.storeWord_lastOp (a : Nat) (v : BusWord) : (s.storeWord a v).lastOp = s.lastOp := rfl
@[simp] theorem State.storeWord_doneIe (a : Nat) (v : BusWord) : (s.storeWord a v).doneIe = s.doneIe := rfl
@[simp] theorem State.storeWord_errIe (a : Nat) (v : BusWord) : (s.storeWord a v).errIe = s.errIe := rfl
@[simp] theorem State.storeWord_rejIe (a : Nat) (v : BusWord) : (s.storeWord a v).rejIe = s.rejIe := rfl
@[simp] theorem State.storeWord_mem (a : Nat) (v : BusWord) :
    (s.storeWord a v).mem = Memory.writeBytes s.mem a (laneBytes v) := rfl
@[simp] theorem State.storeWord_rstN (a : Nat) (v : BusWord) : (s.storeWord a v).rstN = s.rstN := rfl
@[simp] theorem State.storeWord_masters (a : Nat) (v : BusWord) : (s.storeWord a v).masters = s.masters := rfl
@[simp] theorem State.storeWord_turns (a : Nat) (v : BusWord) : (s.storeWord a v).turns = s.turns := rfl
@[simp] theorem State.storeWord_draws (a : Nat) (v : BusWord) : (s.storeWord a v).draws = s.draws := rfl

/-! ### State.startSchedule -/

@[simp] theorem State.startSchedule_build : (s.startSchedule).build = s.build := rfl
@[simp] theorem State.startSchedule_phase : (s.startSchedule).phase = .sched := rfl
@[simp] theorem State.startSchedule_keyValid : (s.startSchedule).keyValid = false := rfl
@[simp] theorem State.startSchedule_ctxR : (s.startSchedule).ctxR = 0 := rfl
@[simp] theorem State.startSchedule_ctxB : (s.startSchedule).ctxB = 0 := rfl
@[simp] theorem State.startSchedule_S : (s.startSchedule).S = s.S := rfl
@[simp] theorem State.startSchedule_L :
    (s.startSchedule).L = (s.packKey s.keylen.toNat).map store ++ s.L.drop ((s.packKey s.keylen.toNat).map store).length := rfl
@[simp] theorem State.startSchedule_snapR : (s.startSchedule).snapR = s.rounds := rfl
@[simp] theorem State.startSchedule_snapB : (s.startSchedule).snapB = s.keylen := rfl
@[simp] theorem State.startSchedule_snapBlk : (s.startSchedule).snapBlk = s.snapBlk := rfl
@[simp] theorem State.startSchedule_blockRegs : (s.startSchedule).blockRegs = s.blockRegs := rfl
@[simp] theorem State.startSchedule_keyRegs : (s.startSchedule).keyRegs = s.keyRegs := rfl
@[simp] theorem State.startSchedule_rounds : (s.startSchedule).rounds = s.rounds := rfl
@[simp] theorem State.startSchedule_keylen : (s.startSchedule).keylen = s.keylen := rfl
@[simp] theorem State.startSchedule_done : (s.startSchedule).done = s.done := rfl
@[simp] theorem State.startSchedule_err : (s.startSchedule).err = s.err := rfl
@[simp] theorem State.startSchedule_errcode : (s.startSchedule).errcode = s.errcode := rfl
@[simp] theorem State.startSchedule_rejected : (s.startSchedule).rejected = s.rejected := rfl
@[simp] theorem State.startSchedule_lastOp : (s.startSchedule).lastOp = s.lastOp := rfl
@[simp] theorem State.startSchedule_doneIe : (s.startSchedule).doneIe = s.doneIe := rfl
@[simp] theorem State.startSchedule_errIe : (s.startSchedule).errIe = s.errIe := rfl
@[simp] theorem State.startSchedule_rejIe : (s.startSchedule).rejIe = s.rejIe := rfl
@[simp] theorem State.startSchedule_mem : (s.startSchedule).mem = s.mem := rfl
@[simp] theorem State.startSchedule_rstN : (s.startSchedule).rstN = s.rstN := rfl
@[simp] theorem State.startSchedule_masters : (s.startSchedule).masters = s.masters := rfl
@[simp] theorem State.startSchedule_turns : (s.startSchedule).turns = s.turns := rfl
@[simp] theorem State.startSchedule_draws : (s.startSchedule).draws = s.draws := rfl

/-! ### State.startBlock -/

@[simp] theorem State.startBlock_build (p : Phase) : (s.startBlock p).build = s.build := rfl
@[simp] theorem State.startBlock_phase (p : Phase) : (s.startBlock p).phase = p := rfl
@[simp] theorem State.startBlock_keyValid (p : Phase) : (s.startBlock p).keyValid = s.keyValid := rfl
@[simp] theorem State.startBlock_ctxR (p : Phase) : (s.startBlock p).ctxR = s.ctxR := rfl
@[simp] theorem State.startBlock_ctxB (p : Phase) : (s.startBlock p).ctxB = s.ctxB := rfl
@[simp] theorem State.startBlock_S (p : Phase) : (s.startBlock p).S = s.S := rfl
@[simp] theorem State.startBlock_L (p : Phase) : (s.startBlock p).L = s.L := rfl
@[simp] theorem State.startBlock_snapR (p : Phase) : (s.startBlock p).snapR = s.snapR := rfl
@[simp] theorem State.startBlock_snapB (p : Phase) : (s.startBlock p).snapB = s.snapB := rfl
@[simp] theorem State.startBlock_snapBlk (p : Phase) : (s.startBlock p).snapBlk = s.dinBlock := rfl
@[simp] theorem State.startBlock_blockRegs (p : Phase) : (s.startBlock p).blockRegs = s.blockRegs := rfl
@[simp] theorem State.startBlock_keyRegs (p : Phase) : (s.startBlock p).keyRegs = s.keyRegs := rfl
@[simp] theorem State.startBlock_rounds (p : Phase) : (s.startBlock p).rounds = s.rounds := rfl
@[simp] theorem State.startBlock_keylen (p : Phase) : (s.startBlock p).keylen = s.keylen := rfl
@[simp] theorem State.startBlock_done (p : Phase) : (s.startBlock p).done = s.done := rfl
@[simp] theorem State.startBlock_err (p : Phase) : (s.startBlock p).err = s.err := rfl
@[simp] theorem State.startBlock_errcode (p : Phase) : (s.startBlock p).errcode = s.errcode := rfl
@[simp] theorem State.startBlock_rejected (p : Phase) : (s.startBlock p).rejected = s.rejected := rfl
@[simp] theorem State.startBlock_lastOp (p : Phase) : (s.startBlock p).lastOp = s.lastOp := rfl
@[simp] theorem State.startBlock_doneIe (p : Phase) : (s.startBlock p).doneIe = s.doneIe := rfl
@[simp] theorem State.startBlock_errIe (p : Phase) : (s.startBlock p).errIe = s.errIe := rfl
@[simp] theorem State.startBlock_rejIe (p : Phase) : (s.startBlock p).rejIe = s.rejIe := rfl
@[simp] theorem State.startBlock_mem (p : Phase) : (s.startBlock p).mem = s.mem := rfl
@[simp] theorem State.startBlock_rstN (p : Phase) : (s.startBlock p).rstN = s.rstN := rfl
@[simp] theorem State.startBlock_masters (p : Phase) : (s.startBlock p).masters = s.masters := rfl
@[simp] theorem State.startBlock_turns (p : Phase) : (s.startBlock p).turns = s.turns := rfl
@[simp] theorem State.startBlock_draws (p : Phase) : (s.startBlock p).draws = s.draws := rfl

/-! ### State.completeSchedule -/

@[simp] theorem State.completeSchedule_build : (s.completeSchedule).build = s.build := rfl
@[simp] theorem State.completeSchedule_phase : (s.completeSchedule).phase = .idle := rfl
@[simp] theorem State.completeSchedule_keyValid : (s.completeSchedule).keyValid = true := rfl
@[simp] theorem State.completeSchedule_ctxR : (s.completeSchedule).ctxR = s.snapR := rfl
@[simp] theorem State.completeSchedule_ctxB : (s.completeSchedule).ctxB = s.snapB := rfl
@[simp] theorem State.completeSchedule_S :
    (s.completeSchedule).S = s.scheduledTable.map store ++ drawS s.build s.draws (s.scheduledTable.map store).length (s.S.length - (s.scheduledTable.map store).length) := rfl
@[simp] theorem State.completeSchedule_L : (s.completeSchedule).L = drawL s.build s.draws := rfl
@[simp] theorem State.completeSchedule_snapR :
    (s.completeSchedule).snapR = (Config.freeSnap s.draws).extractLsb' 0 8 := rfl
@[simp] theorem State.completeSchedule_snapB :
    (s.completeSchedule).snapB = (Config.freeSnap s.draws).extractLsb' 8 16 := rfl
@[simp] theorem State.completeSchedule_snapBlk : (s.completeSchedule).snapBlk = drawSnapBlk s.build s.draws := rfl
@[simp] theorem State.completeSchedule_blockRegs : (s.completeSchedule).blockRegs = s.blockRegs := rfl
@[simp] theorem State.completeSchedule_keyRegs : (s.completeSchedule).keyRegs = drawKeyRegs s.build s.draws := rfl
@[simp] theorem State.completeSchedule_rounds : (s.completeSchedule).rounds = s.rounds := rfl
@[simp] theorem State.completeSchedule_keylen : (s.completeSchedule).keylen = s.keylen := rfl
@[simp] theorem State.completeSchedule_done : (s.completeSchedule).done = true := rfl
@[simp] theorem State.completeSchedule_err : (s.completeSchedule).err = s.err := rfl
@[simp] theorem State.completeSchedule_errcode : (s.completeSchedule).errcode = s.errcode := rfl
@[simp] theorem State.completeSchedule_rejected : (s.completeSchedule).rejected = s.rejected := rfl
@[simp] theorem State.completeSchedule_lastOp : (s.completeSchedule).lastOp = s.lastOp := rfl
@[simp] theorem State.completeSchedule_doneIe : (s.completeSchedule).doneIe = s.doneIe := rfl
@[simp] theorem State.completeSchedule_errIe : (s.completeSchedule).errIe = s.errIe := rfl
@[simp] theorem State.completeSchedule_rejIe : (s.completeSchedule).rejIe = s.rejIe := rfl
@[simp] theorem State.completeSchedule_mem : (s.completeSchedule).mem = s.mem := rfl
@[simp] theorem State.completeSchedule_rstN : (s.completeSchedule).rstN = s.rstN := rfl
@[simp] theorem State.completeSchedule_masters : (s.completeSchedule).masters = s.masters := rfl
@[simp] theorem State.completeSchedule_turns : (s.completeSchedule).turns = s.turns := rfl
@[simp] theorem State.completeSchedule_draws : (s.completeSchedule).draws = s.draws + 1 := rfl

/-! ### State.completeBlock -/

@[simp] theorem State.completeBlock_build (result : List Byte) : (s.completeBlock result).build = s.build := rfl
@[simp] theorem State.completeBlock_phase (result : List Byte) : (s.completeBlock result).phase = .idle := rfl
@[simp] theorem State.completeBlock_keyValid (result : List Byte) : (s.completeBlock result).keyValid = s.keyValid := rfl
@[simp] theorem State.completeBlock_ctxR (result : List Byte) : (s.completeBlock result).ctxR = s.ctxR := rfl
@[simp] theorem State.completeBlock_ctxB (result : List Byte) : (s.completeBlock result).ctxB = s.ctxB := rfl
@[simp] theorem State.completeBlock_S (result : List Byte) : (s.completeBlock result).S = s.S := rfl
@[simp] theorem State.completeBlock_L (result : List Byte) : (s.completeBlock result).L = s.L := rfl
@[simp] theorem State.completeBlock_snapR (result : List Byte) :
    (s.completeBlock result).snapR = (Config.freeSnap s.draws).extractLsb' 0 8 := rfl
@[simp] theorem State.completeBlock_snapB (result : List Byte) :
    (s.completeBlock result).snapB = (Config.freeSnap s.draws).extractLsb' 8 16 := rfl
@[simp] theorem State.completeBlock_snapBlk (result : List Byte) : (s.completeBlock result).snapBlk = drawSnapBlk s.build s.draws := rfl
@[simp] theorem State.completeBlock_blockRegs (result : List Byte) : (s.completeBlock result).blockRegs = drawBlockRegs s.build s.draws := rfl
@[simp] theorem State.completeBlock_keyRegs (result : List Byte) : (s.completeBlock result).keyRegs = s.keyRegs := rfl
@[simp] theorem State.completeBlock_rounds (result : List Byte) : (s.completeBlock result).rounds = s.rounds := rfl
@[simp] theorem State.completeBlock_keylen (result : List Byte) : (s.completeBlock result).keylen = s.keylen := rfl
@[simp] theorem State.completeBlock_done (result : List Byte) : (s.completeBlock result).done = true := rfl
@[simp] theorem State.completeBlock_err (result : List Byte) : (s.completeBlock result).err = s.err := rfl
@[simp] theorem State.completeBlock_errcode (result : List Byte) : (s.completeBlock result).errcode = s.errcode := rfl
@[simp] theorem State.completeBlock_rejected (result : List Byte) : (s.completeBlock result).rejected = s.rejected := rfl
@[simp] theorem State.completeBlock_lastOp (result : List Byte) : (s.completeBlock result).lastOp = s.lastOp := rfl
@[simp] theorem State.completeBlock_doneIe (result : List Byte) : (s.completeBlock result).doneIe = s.doneIe := rfl
@[simp] theorem State.completeBlock_errIe (result : List Byte) : (s.completeBlock result).errIe = s.errIe := rfl
@[simp] theorem State.completeBlock_rejIe (result : List Byte) : (s.completeBlock result).rejIe = s.rejIe := rfl
@[simp] theorem State.completeBlock_mem (result : List Byte) :
    (s.completeBlock result).mem = Memory.writeBytes s.mem doutBase result := rfl
@[simp] theorem State.completeBlock_rstN (result : List Byte) : (s.completeBlock result).rstN = s.rstN := rfl
@[simp] theorem State.completeBlock_masters (result : List Byte) : (s.completeBlock result).masters = s.masters := rfl
@[simp] theorem State.completeBlock_turns (result : List Byte) : (s.completeBlock result).turns = s.turns := rfl
@[simp] theorem State.completeBlock_draws (result : List Byte) : (s.completeBlock result).draws = s.draws + 1 := rfl

/-! ### State.resetHigh -/

@[simp] theorem State.resetHigh_build : (s.resetHigh).build = s.build := rfl
@[simp] theorem State.resetHigh_phase : (s.resetHigh).phase = s.phase := rfl
@[simp] theorem State.resetHigh_keyValid : (s.resetHigh).keyValid = s.keyValid := rfl
@[simp] theorem State.resetHigh_ctxR : (s.resetHigh).ctxR = s.ctxR := rfl
@[simp] theorem State.resetHigh_ctxB : (s.resetHigh).ctxB = s.ctxB := rfl
@[simp] theorem State.resetHigh_S : (s.resetHigh).S = s.S := rfl
@[simp] theorem State.resetHigh_L : (s.resetHigh).L = s.L := rfl
@[simp] theorem State.resetHigh_snapR : (s.resetHigh).snapR = s.snapR := rfl
@[simp] theorem State.resetHigh_snapB : (s.resetHigh).snapB = s.snapB := rfl
@[simp] theorem State.resetHigh_snapBlk : (s.resetHigh).snapBlk = s.snapBlk := rfl
@[simp] theorem State.resetHigh_blockRegs : (s.resetHigh).blockRegs = s.blockRegs := rfl
@[simp] theorem State.resetHigh_keyRegs : (s.resetHigh).keyRegs = s.keyRegs := rfl
@[simp] theorem State.resetHigh_rounds : (s.resetHigh).rounds = s.rounds := rfl
@[simp] theorem State.resetHigh_keylen : (s.resetHigh).keylen = s.keylen := rfl
@[simp] theorem State.resetHigh_done : (s.resetHigh).done = s.done := rfl
@[simp] theorem State.resetHigh_err : (s.resetHigh).err = s.err := rfl
@[simp] theorem State.resetHigh_errcode : (s.resetHigh).errcode = s.errcode := rfl
@[simp] theorem State.resetHigh_rejected : (s.resetHigh).rejected = s.rejected := rfl
@[simp] theorem State.resetHigh_lastOp : (s.resetHigh).lastOp = s.lastOp := rfl
@[simp] theorem State.resetHigh_doneIe : (s.resetHigh).doneIe = s.doneIe := rfl
@[simp] theorem State.resetHigh_errIe : (s.resetHigh).errIe = s.errIe := rfl
@[simp] theorem State.resetHigh_rejIe : (s.resetHigh).rejIe = s.rejIe := rfl
@[simp] theorem State.resetHigh_mem : (s.resetHigh).mem = s.mem := rfl
@[simp] theorem State.resetHigh_rstN : (s.resetHigh).rstN = true := rfl
@[simp] theorem State.resetHigh_masters : (s.resetHigh).masters = s.masters := rfl
@[simp] theorem State.resetHigh_turns : (s.resetHigh).turns = s.turns := rfl
@[simp] theorem State.resetHigh_draws : (s.resetHigh).draws = s.draws := rfl

/-! ### State.answer -/

@[simp] theorem State.answer_build (m : Nat) (line : Line) (r : Response) : (s.answer m line r).build = s.build := rfl
@[simp] theorem State.answer_phase (m : Nat) (line : Line) (r : Response) : (s.answer m line r).phase = s.phase := rfl
@[simp] theorem State.answer_keyValid (m : Nat) (line : Line) (r : Response) : (s.answer m line r).keyValid = s.keyValid := rfl
@[simp] theorem State.answer_ctxR (m : Nat) (line : Line) (r : Response) : (s.answer m line r).ctxR = s.ctxR := rfl
@[simp] theorem State.answer_ctxB (m : Nat) (line : Line) (r : Response) : (s.answer m line r).ctxB = s.ctxB := rfl
@[simp] theorem State.answer_S (m : Nat) (line : Line) (r : Response) : (s.answer m line r).S = s.S := rfl
@[simp] theorem State.answer_L (m : Nat) (line : Line) (r : Response) : (s.answer m line r).L = s.L := rfl
@[simp] theorem State.answer_snapR (m : Nat) (line : Line) (r : Response) : (s.answer m line r).snapR = s.snapR := rfl
@[simp] theorem State.answer_snapB (m : Nat) (line : Line) (r : Response) : (s.answer m line r).snapB = s.snapB := rfl
@[simp] theorem State.answer_snapBlk (m : Nat) (line : Line) (r : Response) : (s.answer m line r).snapBlk = s.snapBlk := rfl
@[simp] theorem State.answer_blockRegs (m : Nat) (line : Line) (r : Response) : (s.answer m line r).blockRegs = s.blockRegs := rfl
@[simp] theorem State.answer_keyRegs (m : Nat) (line : Line) (r : Response) : (s.answer m line r).keyRegs = s.keyRegs := rfl
@[simp] theorem State.answer_rounds (m : Nat) (line : Line) (r : Response) : (s.answer m line r).rounds = s.rounds := rfl
@[simp] theorem State.answer_keylen (m : Nat) (line : Line) (r : Response) : (s.answer m line r).keylen = s.keylen := rfl
@[simp] theorem State.answer_done (m : Nat) (line : Line) (r : Response) : (s.answer m line r).done = s.done := rfl
@[simp] theorem State.answer_err (m : Nat) (line : Line) (r : Response) : (s.answer m line r).err = s.err := rfl
@[simp] theorem State.answer_errcode (m : Nat) (line : Line) (r : Response) : (s.answer m line r).errcode = s.errcode := rfl
@[simp] theorem State.answer_rejected (m : Nat) (line : Line) (r : Response) : (s.answer m line r).rejected = s.rejected := rfl
@[simp] theorem State.answer_lastOp (m : Nat) (line : Line) (r : Response) : (s.answer m line r).lastOp = s.lastOp := rfl
@[simp] theorem State.answer_doneIe (m : Nat) (line : Line) (r : Response) : (s.answer m line r).doneIe = s.doneIe := rfl
@[simp] theorem State.answer_errIe (m : Nat) (line : Line) (r : Response) : (s.answer m line r).errIe = s.errIe := rfl
@[simp] theorem State.answer_rejIe (m : Nat) (line : Line) (r : Response) : (s.answer m line r).rejIe = s.rejIe := rfl
@[simp] theorem State.answer_mem (m : Nat) (line : Line) (r : Response) : (s.answer m line r).mem = s.mem := rfl
@[simp] theorem State.answer_rstN (m : Nat) (line : Line) (r : Response) : (s.answer m line r).rstN = s.rstN := rfl
@[simp] theorem State.answer_masters (m : Nat) (line : Line) (r : Response) :
    (s.answer m line r).masters = s.masters.modify m (Master.answered line r) := rfl
@[simp] theorem State.answer_turns (m : Nat) (line : Line) (r : Response) : (s.answer m line r).turns = s.turns := rfl
@[simp] theorem State.answer_draws (m : Nat) (line : Line) (r : Response) : (s.answer m line r).draws = s.draws := rfl

/-! ### State.popTurn -/

@[simp] theorem State.popTurn_build : (s.popTurn).build = s.build := rfl
@[simp] theorem State.popTurn_phase : (s.popTurn).phase = s.phase := rfl
@[simp] theorem State.popTurn_keyValid : (s.popTurn).keyValid = s.keyValid := rfl
@[simp] theorem State.popTurn_ctxR : (s.popTurn).ctxR = s.ctxR := rfl
@[simp] theorem State.popTurn_ctxB : (s.popTurn).ctxB = s.ctxB := rfl
@[simp] theorem State.popTurn_S : (s.popTurn).S = s.S := rfl
@[simp] theorem State.popTurn_L : (s.popTurn).L = s.L := rfl
@[simp] theorem State.popTurn_snapR : (s.popTurn).snapR = s.snapR := rfl
@[simp] theorem State.popTurn_snapB : (s.popTurn).snapB = s.snapB := rfl
@[simp] theorem State.popTurn_snapBlk : (s.popTurn).snapBlk = s.snapBlk := rfl
@[simp] theorem State.popTurn_blockRegs : (s.popTurn).blockRegs = s.blockRegs := rfl
@[simp] theorem State.popTurn_keyRegs : (s.popTurn).keyRegs = s.keyRegs := rfl
@[simp] theorem State.popTurn_rounds : (s.popTurn).rounds = s.rounds := rfl
@[simp] theorem State.popTurn_keylen : (s.popTurn).keylen = s.keylen := rfl
@[simp] theorem State.popTurn_done : (s.popTurn).done = s.done := rfl
@[simp] theorem State.popTurn_err : (s.popTurn).err = s.err := rfl
@[simp] theorem State.popTurn_errcode : (s.popTurn).errcode = s.errcode := rfl
@[simp] theorem State.popTurn_rejected : (s.popTurn).rejected = s.rejected := rfl
@[simp] theorem State.popTurn_lastOp : (s.popTurn).lastOp = s.lastOp := rfl
@[simp] theorem State.popTurn_doneIe : (s.popTurn).doneIe = s.doneIe := rfl
@[simp] theorem State.popTurn_errIe : (s.popTurn).errIe = s.errIe := rfl
@[simp] theorem State.popTurn_rejIe : (s.popTurn).rejIe = s.rejIe := rfl
@[simp] theorem State.popTurn_mem : (s.popTurn).mem = s.mem := rfl
@[simp] theorem State.popTurn_rstN : (s.popTurn).rstN = s.rstN := rfl
@[simp] theorem State.popTurn_masters : (s.popTurn).masters = s.masters := rfl
@[simp] theorem State.popTurn_turns : (s.popTurn).turns = s.turns.tail := rfl
@[simp] theorem State.popTurn_draws : (s.popTurn).draws = s.draws := rfl

/-! ### State.resetLow -/

@[simp] theorem State.resetLow_build : (s.resetLow).build = s.build := rfl
@[simp] theorem State.resetLow_phase : (s.resetLow).phase = .idle := rfl
@[simp] theorem State.resetLow_keyValid : (s.resetLow).keyValid = false := rfl
@[simp] theorem State.resetLow_ctxR : (s.resetLow).ctxR = 0 := rfl
@[simp] theorem State.resetLow_ctxB : (s.resetLow).ctxB = 0 := rfl
@[simp] theorem State.resetLow_S :
    (s.resetLow).S = drawS s.build s.draws 0 s.build.tableWords := rfl
@[simp] theorem State.resetLow_L : (s.resetLow).L = drawL s.build s.draws := rfl
@[simp] theorem State.resetLow_snapR :
    (s.resetLow).snapR = (Config.freeSnap s.draws).extractLsb' 0 8 := rfl
@[simp] theorem State.resetLow_snapB :
    (s.resetLow).snapB = (Config.freeSnap s.draws).extractLsb' 8 16 := rfl
@[simp] theorem State.resetLow_snapBlk : (s.resetLow).snapBlk = drawSnapBlk s.build s.draws := rfl
@[simp] theorem State.resetLow_blockRegs : (s.resetLow).blockRegs = drawBlockRegs s.build s.draws := rfl
@[simp] theorem State.resetLow_keyRegs : (s.resetLow).keyRegs = drawKeyRegs s.build s.draws := rfl
@[simp] theorem State.resetLow_rounds : (s.resetLow).rounds = resetRounds s.build := rfl
@[simp] theorem State.resetLow_keylen : (s.resetLow).keylen = 0 := rfl
@[simp] theorem State.resetLow_done : (s.resetLow).done = false := rfl
@[simp] theorem State.resetLow_err : (s.resetLow).err = false := rfl
@[simp] theorem State.resetLow_errcode : (s.resetLow).errcode = .none := rfl
@[simp] theorem State.resetLow_rejected : (s.resetLow).rejected = false := rfl
@[simp] theorem State.resetLow_lastOp : (s.resetLow).lastOp = 0 := rfl
@[simp] theorem State.resetLow_doneIe : (s.resetLow).doneIe = false := rfl
@[simp] theorem State.resetLow_errIe : (s.resetLow).errIe = false := rfl
@[simp] theorem State.resetLow_rejIe : (s.resetLow).rejIe = false := rfl
@[simp] theorem State.resetLow_mem : (s.resetLow).mem = [] := rfl
@[simp] theorem State.resetLow_rstN : (s.resetLow).rstN = false := rfl
@[simp] theorem State.resetLow_masters : (s.resetLow).masters = s.masters := rfl
@[simp] theorem State.resetLow_turns : (s.resetLow).turns = s.turns := rfl
@[simp] theorem State.resetLow_draws : (s.resetLow).draws = s.draws + 1 := rfl

end Sys2Proof.Machine
end

