-- ==== Sys2Proof/Laws/Sequencer.lean ====
section
/-! SUPPORT. What each shared operation can do, said once: issuing a command, a bus transaction, a completion, an agent's
turn, a step. -/

namespace Sys2Proof.Machine

open Sys2Proof

/-- BUSY is phase ≠ IDLE. -/
@[simp] theorem busy_eq_false (s : State) : s.busy = false ↔ s.phase = .idle := by simp [State.busy]

@[simp] theorem busy_eq_true (s : State) : s.busy = true ↔ s.phase ≠ .idle := by simp [State.busy]

/-- An issue while BUSY only rejects. -/
theorem issue_of_busy {s : State} (h : s.busy = true) (op : BitVec 4) (part : State → State) :
    s.issue op part = s.reject := by simp only [State.issue, h, if_true]

/-- An issue while not BUSY: the common effects, then the issue part. -/
theorem issue_of_idle {s : State} (h : s.busy = false) (op : BitVec 4) (part : State → State) :
    s.issue op part = part (s.issueEffects op) := by simp [State.issue, h]

/-- SCHEDULE's issue part, case by case. -/
theorem schedulePart_cases (s : State) :
    (s.keylen.toNat = 0 ∧ s.schedulePart = s.raiseError .invalidKey) ∨
    (s.keylen.toNat > s.build.bMax ∧ s.schedulePart = s.raiseError .keyTooLong) ∨
    (s.rounds.toNat > s.build.rMax.toNat ∧ s.schedulePart = s.raiseError .invalidRounds) ∨
    (1 ≤ s.keylen.toNat ∧ s.keylen.toNat ≤ s.build.bMax ∧ s.rounds.toNat ≤ s.build.rMax.toNat ∧
      s.schedulePart = s.startSchedule) := by
  unfold State.schedulePart
  split
  · exact .inl ⟨‹_›, rfl⟩
  · split
    · exact .inr (.inl ⟨‹_›, rfl⟩)
    · split
      · exact .inr (.inr (.inl ⟨‹_›, rfl⟩))
      · exact .inr (.inr (.inr ⟨by omega, by omega, by omega, rfl⟩))

/-- The block commands' issue part, case by case. -/
theorem blockPart_cases (phase : Phase) (s : State) :
    (s.keyValid = false ∧ s.blockPart phase = s.raiseError .noKey) ∨
    (s.keyValid = true ∧ s.blockPart phase = s.startBlock phase) := by
  unfold State.blockPart
  cases s.keyValid with
  | false => exact .inl ⟨rfl, rfl⟩
  | true => exact .inr ⟨rfl, rfl⟩

/-- What a command does when it is issued, said once: rejected, failed with a code, or started. -/
theorem exec_cases (i : Instr) (s : State) :
    exec i s = .next s.reject ∧ s.busy = true ∨
    (∃ code, exec i s = .next ((s.issueEffects (opcode i)).raiseError code) ∧ s.busy = false ∧
      (code = .invalidKey ∨ code = .keyTooLong ∨ code = .invalidRounds ∨ code = .noKey)) ∨
    (i = .schedule ∧ exec i s = .next (s.issueEffects 0x1#4).startSchedule ∧ s.busy = false ∧
      1 ≤ s.keylen.toNat ∧ s.keylen.toNat ≤ s.build.bMax ∧ s.rounds.toNat ≤ s.build.rMax.toNat) ∨
    (i = .encrypt ∧ exec i s = .next ((s.issueEffects 0x2#4).startBlock .enc) ∧ s.busy = false ∧ s.keyValid = true) ∨
    (i = .decrypt ∧ exec i s = .next ((s.issueEffects 0x3#4).startBlock .dec) ∧ s.busy = false ∧ s.keyValid = true) := by
  cases hb : s.busy with
  | true =>
    refine .inl ⟨?_, rfl⟩
    cases i <;> exact congrArg Host.Outcome.next (issue_of_busy hb _ _)
  | false =>
    cases i with
    | schedule =>
      have e : exec .schedule s = .next (s.issueEffects 0x1#4).schedulePart := congrArg _ (issue_of_idle hb _ _)
      rcases schedulePart_cases (s.issueEffects 0x1#4) with ⟨-, h⟩ | ⟨-, h⟩ | ⟨-, h⟩ | ⟨h1, h2, h3, h⟩
      · exact .inr (.inl ⟨_, e.trans (congrArg _ h), rfl, .inl rfl⟩)
      · exact .inr (.inl ⟨_, e.trans (congrArg _ h), rfl, .inr (.inl rfl)⟩)
      · exact .inr (.inl ⟨_, e.trans (congrArg _ h), rfl, .inr (.inr (.inl rfl))⟩)
      · exact .inr (.inr (.inl ⟨rfl, e.trans (congrArg _ h), rfl, h1, h2, h3⟩))
    | encrypt =>
      have e : exec .encrypt s = .next ((s.issueEffects 0x2#4).blockPart .enc) := congrArg _ (issue_of_idle hb _ _)
      rcases blockPart_cases .enc (s.issueEffects 0x2#4) with ⟨-, h⟩ | ⟨hk, h⟩
      · exact .inr (.inl ⟨.noKey, e.trans (congrArg _ h), rfl, .inr (.inr (.inr rfl))⟩)
      · exact .inr (.inr (.inr (.inl ⟨rfl, e.trans (congrArg _ h), rfl, hk⟩)))
    | decrypt =>
      have e : exec .decrypt s = .next ((s.issueEffects 0x3#4).blockPart .dec) := congrArg _ (issue_of_idle hb _ _)
      rcases blockPart_cases .dec (s.issueEffects 0x3#4) with ⟨-, h⟩ | ⟨hk, h⟩
      · exact .inr (.inl ⟨.noKey, e.trans (congrArg _ h), rfl, .inr (.inr (.inr rfl))⟩)
      · exact .inr (.inr (.inr (.inr ⟨rfl, e.trans (congrArg _ h), rfl, hk⟩)))

/-- A word that decodes to a command has its OP. -/
theorem opField_of_decode {w : BusWord} {i : Instr} (h : decode w = .ok i) : opField w = opcode i := by
  simp only [decode, opcodeMap] at h
  split_ifs at h <;> cases h <;> assumption

/-- What issuing any command word does: rejected, failed with a reported code, or started. -/
theorem issueWord_cases (w : BusWord) (s : State) :
    (issueWord w s = .next s.reject ∧ s.busy = true) ∨
    (∃ code, issueWord w s = .next ((s.issueEffects (opField w)).raiseError code) ∧ s.busy = false ∧
      (code = .invalidKey ∨ code = .keyTooLong ∨ code = .invalidRounds ∨ code = .noKey ∨ code = .illegalCommand)) ∨
    (issueWord w s = .next (s.issueEffects 0x1#4).startSchedule ∧ s.busy = false ∧
      1 ≤ s.keylen.toNat ∧ s.keylen.toNat ≤ s.build.bMax ∧ s.rounds.toNat ≤ s.build.rMax.toNat) ∨
    (issueWord w s = .next ((s.issueEffects 0x2#4).startBlock .enc) ∧ s.busy = false ∧ s.keyValid = true) ∨
    (issueWord w s = .next ((s.issueEffects 0x3#4).startBlock .dec) ∧ s.busy = false ∧ s.keyValid = true) := by
  unfold issueWord
  cases hd : decode w with
  | error e =>
    cases hb : s.busy with
    | true => exact .inl ⟨congrArg _ (issue_of_busy hb _ _), rfl⟩
    | false => exact .inr (.inl ⟨.illegalCommand, congrArg _ (issue_of_idle hb _ _), rfl, by simp⟩)
  | ok i =>
    have hop := opField_of_decode hd
    rcases exec_cases i s with h | ⟨code, h, hb, hc⟩ | ⟨-, h⟩ | ⟨-, h⟩ | ⟨-, h⟩
    · exact .inl h
    · refine .inr (.inl ⟨code, by rw [hop]; exact h, hb, ?_⟩)
      rcases hc with h | h | h | h <;> simp [h]
    · exact .inr (.inr (.inl h))
    · exact .inr (.inr (.inr (.inl h)))
    · exact .inr (.inr (.inr (.inr h)))

/-- What a slot says of the offset it stands at. -/
def Slot.standsAt (b : Build) (a : Nat) : Slot → Prop
  | .id => a = 0x000
  | .param => a = 0x004
  | .config => a = 0x008
  | .cmd => a = 0x00C
  | .status => a = 0x010
  | .irqEn => a = 0x014
  | .ctx => a = 0x018
  | .din k => k < b.blkBytes ∧ a = dinBase + k
  | .dout k => k < b.blkBytes ∧ a = doutBase + k
  | .key k => k < b.bMax ∧ a = keyBase + k
  | .unmapped => True

/-- The offset of a window byte, from a base and a length. -/
theorem window_stands {a base n : Nat} (h : base ≤ a ∧ a < base + n) : a - base < n ∧ a = base + (a - base) := by
  omega

/-- The register map read backwards, said once. -/
theorem slotAt_stands (b : Build) (a : Nat) : (slotAt b a).standsAt b a := by
  unfold slotAt
  repeat' refine iteInduction (motive := Slot.standsAt b a) (fun h => ?_) (fun _ => ?_)
  iterate 7 exact h
  iterate 3 exact window_stands h
  exact trivial

/-- Where a window slot stands. -/
theorem slotAt_din {b : Build} {a k : Nat} (h : slotAt b a = .din k) : k < b.blkBytes ∧ a = dinBase + k :=
  (h ▸ slotAt_stands b a : Slot.standsAt b a (.din k))

theorem slotAt_dout {b : Build} {a k : Nat} (h : slotAt b a = .dout k) : k < b.blkBytes ∧ a = doutBase + k :=
  (h ▸ slotAt_stands b a : Slot.standsAt b a (.dout k))

theorem slotAt_key {b : Build} {a k : Nat} (h : slotAt b a = .key k) : k < b.bMax ∧ a = keyBase + k :=
  (h ▸ slotAt_stands b a : Slot.standsAt b a (.key k))

/-- A write to a slot, said once: no effect, a register write, an issue, or a word stored in DIN or KEY. -/
theorem writeTo_cases (slot : Slot) (v : BusWord) (s : State) :
    writeTo slot v s = .next s ∨ writeTo slot v s = .next (s.writeConfig v) ∨
    writeTo slot v s = .next (s.writeStatus v) ∨ writeTo slot v s = .next (s.writeIrqEn v) ∨
    (slot = .cmd ∧ writeTo slot v s = issueWord v s) ∨
    (∃ k, slot = .din k ∧ writeTo slot v s = .next (s.storeWord (dinBase + k) v)) ∨
    (∃ k, slot = .key k ∧ writeTo slot v s = .next (s.storeWord (keyBase + k) v)) := by
  cases slot with
  | config => exact .inr (.inl rfl)
  | status => exact .inr (.inr (.inl rfl))
  | irqEn => exact .inr (.inr (.inr (.inl rfl)))
  | cmd => exact .inr (.inr (.inr (.inr (.inl ⟨rfl, rfl⟩))))
  | din k => exact .inr (.inr (.inr (.inr (.inr (.inl ⟨k, rfl, rfl⟩)))))
  | key k => exact .inr (.inr (.inr (.inr (.inr (.inr ⟨k, rfl, rfl⟩)))))
  | id => exact .inl rfl
  | param => exact .inl rfl
  | ctx => exact .inl rfl
  | dout k => exact .inl rfl
  | unmapped => exact .inl rfl

/-- A transaction with no response OK has no effect (20_memory.md R61). -/
theorem writeTo_of_not_writable {slot : Slot} (h : slot.writable = false) (v : BusWord) (s : State) :
    writeTo slot v s = .next s := by
  cases slot <;> first | rfl | cases h

/-- A completion, by the phase. -/
theorem complete_idle {s : State} (h : s.phase = .idle) : s.complete = s := by simp [State.complete, h]

theorem complete_sched {s : State} (h : s.phase = .sched) : s.complete = s.completeSchedule := by
  simp [State.complete, h]

theorem complete_enc {s : State} (h : s.phase = .enc) : s.complete = s.completeBlock s.encryptedBytes := by
  simp [State.complete, h]

theorem complete_dec {s : State} (h : s.phase = .dec) : s.complete = s.completeBlock s.decryptedBytes := by
  simp [State.complete, h]

/-- After a completion nothing is in flight. -/
theorem complete_busy (t : State) : t.complete.busy = false := by
  unfold State.complete
  cases h : t.phase <;> simp [State.busy, h]

/-- A completion of an operation sets DONE. -/
theorem complete_done {t : State} (h : t.phase ≠ .idle) : t.complete.done = true := by
  unfold State.complete
  cases h' : t.phase <;> simp_all

/-- A completion leaves ERR alone. -/
theorem complete_err (t : State) : t.complete.err = t.err := by
  unfold State.complete
  cases h' : t.phase <;> simp

/-- A completion leaves ERRCODE alone. -/
theorem complete_errcode (t : State) : t.complete.errcode = t.errcode := by
  unfold State.complete
  cases h' : t.phase <;> simp

/-- A completion leaves REJECTED alone. -/
theorem complete_rejected (t : State) : t.complete.rejected = t.rejected := by
  unfold State.complete
  cases h' : t.phase <;> simp

/-- A completion leaves LAST_OP alone. -/
theorem complete_lastOp (t : State) : t.complete.lastOp = t.lastOp := by
  unfold State.complete
  cases h' : t.phase <;> simp

/-- A completion leaves the build alone. -/
theorem complete_build (t : State) : t.complete.build = t.build := by
  unfold State.complete
  cases h' : t.phase <;> simp

/-- A master's turn, said once. -/
theorem hostTurn_cases (m : Nat) (s : State) :
    (s.nextLine m = none ∧ hostTurn m s = .next s) ∨
    (∃ line, s.nextLine m = some line ∧ s.rstN = false ∧ hostTurn m s = .fault .transactionDuringReset) ∨
    (∃ line, s.nextLine m = some line ∧ s.rstN = true ∧
      hostTurn m s =
        mapNext (State.answer m line (s.respond (lineTxn line))) (busEffect (lineTxn line) s)) := by
  unfold hostTurn
  cases hl : s.nextLine m with
  | none => exact .inl ⟨rfl, rfl⟩
  | some line =>
    cases hr : s.rstN with
    | false => exact .inr (.inl ⟨line, rfl, rfl, by simp⟩)
    | true => exact .inr (.inr ⟨line, rfl, rfl, by simp⟩)

/-- A step, said once: nobody moves, or the next agent's turn is taken. -/
theorem step_cases (s : State) :
    (s.nextTurn = none ∧ step s = .next s) ∨ ∃ t, s.nextTurn = some t ∧ step s = takeTurn t s.popTurn := by
  unfold step stepTurn
  cases h : s.nextTurn with
  | none => exact .inl ⟨rfl, rfl⟩
  | some t => exact .inr ⟨t, rfl, rfl⟩

end Sys2Proof.Machine
end

