-- ==== Sys2Proof/Laws/Windows.lean ====
section
/-! SUPPORT. Where the windows' bus words stand, what one bus word stored there changes, and the inversions of a
transaction and of a step. -/

namespace Sys2Proof.Machine

open Sys2Proof

/-- BLK_BYTES is 4, 8, 16 or 32. -/
theorem blk_bounds (b : Build) : b.blkBytes ≤ 32 ∧ 4 ≤ b.blkBytes ∧ b.blkBytes % 4 = 0 := by
  simp only [Build.blkBytes, Build.u]
  rcases bits_cases b with h | h | h | h <;> rw [h] <;> decide

/-- B_MAX is a multiple of 8 in 8 to 256. -/
theorem bMax_bounds (b : Build) : b.bMax ≤ 256 ∧ 8 ≤ b.bMax ∧ b.bMax % 4 = 0 := by
  have := b.bUnits.isLt
  simp only [Build.bMax]; omega

/-- Alignment is divisibility by 4. -/
theorem aligned_iff (a : Offset) : aligned a = true ↔ a.toNat % 4 = 0 := by
  simp only [aligned, beq_iff_eq]
  constructor
  · intro h; have := congrArg BitVec.toNat h; simpa [BitVec.extractLsb'_toNat] using this
  · intro h; apply BitVec.eq_of_toNat_eq; simpa [BitVec.extractLsb'_toNat] using h

/-- Above the registers only the windows are left. -/
theorem slotAt_of_ge (b : Build) {a : Nat} (h : dinBase ≤ a) :
    slotAt b a = if a < dinBase + b.blkBytes then .din (a - dinBase)
      else if doutBase ≤ a ∧ a < doutBase + b.blkBytes then .dout (a - doutBase)
      else if keyBase ≤ a ∧ a < keyBase + b.bMax then .key (a - keyBase)
      else .unmapped := by
  have ne : ∀ r, r < dinBase → a ≠ r := fun r hr e => absurd (e ▸ hr) (Nat.not_lt.mpr h)
  unfold slotAt
  repeat rw [if_neg (ne _ (by decide))]
  simp only [h, true_and]

/-- Bus word `n` of the DIN window. -/
theorem slotAt_dinW (b : Build) (n : Nat) (h : 4 * n < b.blkBytes) : slotAt b (0x040 + 4 * n) = .din (4 * n) := by
  have hin : dinBase + 4 * n < dinBase + b.blkBytes := Nat.add_lt_add_left h _
  refine (slotAt_of_ge b (Nat.le_add_right dinBase (4 * n))).trans ?_
  simp [hin]

/-- Bus word `n` of the DOUT window, which begins after every DIN window's end. -/
theorem slotAt_doutW (b : Build) (n : Nat) (h : 4 * n < b.blkBytes) : slotAt b (0x060 + 4 * n) = .dout (4 * n) := by
  have hin : doutBase + 4 * n < doutBase + b.blkBytes := Nat.add_lt_add_left h _
  have hout : ¬ doutBase + 4 * n < dinBase + b.blkBytes := by
    have hb := (blk_bounds b).1
    have hgap : doutBase = dinBase + 32 := rfl
    omega
  refine (slotAt_of_ge b (le_trans (by decide) (Nat.le_add_right doutBase (4 * n)))).trans ?_
  simp [hin, hout]

/-- Bus word `n` of the KEY window, which begins after every DOUT window's end. -/
theorem slotAt_keyW (b : Build) (n : Nat) (h : 4 * n < b.bMax) : slotAt b (0x100 + 4 * n) = .key (4 * n) := by
  have hin : keyBase + 4 * n < keyBase + b.bMax := Nat.add_lt_add_left h _
  have hout : ¬ keyBase + 4 * n < dinBase + b.blkBytes ∧ ¬ keyBase + 4 * n < doutBase + b.blkBytes := by
    have hb := (blk_bounds b).1
    have hgap : keyBase = doutBase + 160 := rfl
    have hgap' : doutBase = dinBase + 32 := rfl
    omega
  refine (slotAt_of_ge b (le_trans (by decide) (Nat.le_add_right keyBase (4 * n)))).trans ?_
  simp [hin, hout]

/-- An aligned full-width write reaches the slot at its offset. -/
theorem writeSlot_ofNat (b : Build) (a : Nat) (ha : a < 512) (h4 : a % 4 = 0) : writeSlot b (BitVec.ofNat 9 a) 0b1111#4 = slotAt b a := by
  have e : (BitVec.ofNat 9 a).toNat = a := by simp; omega
  have : aligned (BitVec.ofNat 9 a) = true := by rw [aligned_iff, e]; exact h4
  simp only [writeSlot, this, e]; rfl

/-- An aligned full-width read reaches the slot at its offset. -/
theorem readSlot_ofNat (b : Build) (a : Nat) (ha : a < 512) (h4 : a % 4 = 0) : readSlot b (BitVec.ofNat 9 a) .word = slotAt b a := by
  have e : (BitVec.ofNat 9 a).toNat = a := by simp; omega
  have : aligned (BitVec.ofNat 9 a) = true := by rw [aligned_iff, e]; exact h4
  simp only [readSlot, this, e]; rfl

/-- Only offset 0x010 is STATUS. -/
theorem slot_status {b : Build} {a : Nat} (h : slotAt b a = .status) : a = 0x10 :=
  (h ▸ slotAt_stands b a : Slot.standsAt b a .status)

/-- Only offset 0x00C is CMD. -/
theorem slot_cmd {b : Build} {a : Nat} (h : slotAt b a = .cmd) : a = 0xC :=
  (h ▸ slotAt_stands b a : Slot.standsAt b a .cmd)

/-- A write that reaches a slot is aligned and has all four strobes. -/
theorem writeSlot_ne {b : Build} {a : Offset} {st : BitVec 4} {x : Slot} (h : writeSlot b a st = x) (hx : x ≠ .unmapped) :
    aligned a = true ∧ st = 0b1111#4 ∧ slotAt b a.toNat = x := by
  unfold writeSlot at h
  split at h
  · rename_i hc; simp at hc; exact ⟨hc.1, hc.2, h⟩
  · exact absurd h.symm hx

/-- Byte `k` of a bus word in its lanes. -/
theorem laneBytes_get (v : BusWord) (k : Nat) (hk : k < 4) : (laneBytes v)[k]'(by simp [laneBytes]; omega) = v.extractLsb' (8*k) 8 := by
  have : k = 0 ∨ k = 1 ∨ k = 2 ∨ k = 3 := by omega
  rcases this with rfl | rfl | rfl | rfl <;> rfl

/-- A stored bus word, said once: memory alone changes, its four bytes read back, every other byte stays. -/
theorem storeWord_spec (s : State) (a : Nat) (v : BusWord) (h : Memory.wf s.mem = true) :
   (s.storeWord a v) = { s with mem := (s.storeWord a v).mem } ∧
   (∀ k, k < 4 → Memory.read (s.storeWord a v).mem (a+k) = v.extractLsb' (8 * k) 8) ∧
   (∀ x, (x < a ∨ a + 4 ≤ x) → Memory.read (s.storeWord a v).mem x = Memory.read s.mem x) := by
  refine ⟨rfl, fun k hk => ?_, fun x hx => ?_⟩
  · rw [State.storeWord_mem, Memory.read_writeBytes_in h a _ (by simp [laneBytes]; omega), laneBytes_get _ _ hk]
  · rw [State.storeWord_mem, Memory.read_writeBytes_out]; simpa [laneBytes] using hx

/-- A write always has a next state. -/
theorem writeTo_next (sl : Slot) (v : BusWord) (s : State) : ∃ t, writeTo sl v s = .next t := by
  cases sl with
  | cmd =>
    rcases issueWord_cases v s with ⟨h, -⟩ | ⟨code, h, -, -⟩ | ⟨h, -⟩ | ⟨h, -⟩ | ⟨h, -⟩ <;> exact ⟨_, h⟩
  | _ => exact ⟨_, rfl⟩

/-- A transaction always has a next state. -/
theorem busEffect_next (x : Txn) (s : State) : ∃ t, busEffect x s = .next t := by
  cases x with
  | read => exact ⟨_, rfl⟩
  | write a st v => exact writeTo_next _ _ _

/-- A transaction, said once: nothing, a register write, an issue, or one bus word stored in DIN or KEY. -/
theorem busEffect_cases {x : Txn} {s u : State} (h : busEffect x s = .next u) :
    u = s ∨ (∃ a v, x = .memWrite a v ∧
      ((u = s.writeConfig v) ∨ (a = 0x010#9 ∧ u = s.writeStatus v) ∨ (u = s.writeIrqEn v) ∨
       (a = 0x00C#9 ∧ issueWord v s = .next u) ∨
       (∃ k, k + 4 ≤ s.build.blkBytes ∧ u = s.storeWord (dinBase + k) v) ∨
       (∃ k, k + 4 ≤ s.build.bMax ∧ u = s.storeWord (keyBase + k) v))) := by
  cases x with
  | read a z => cases h; exact .inl rfl
  | write a st v =>
    simp only [busEffect] at h
    have hbb := blk_bounds s.build
    have hmm := bMax_bounds s.build
    generalize hs : writeSlot s.build a st = sl at h
    cases sl with
    | id => cases h; exact .inl rfl
    | param => cases h; exact .inl rfl
    | ctx => cases h; exact .inl rfl
    | dout => cases h; exact .inl rfl
    | unmapped => cases h; exact .inl rfl
    | config => obtain ⟨h1, rfl, h3⟩ := writeSlot_ne hs (by simp); cases h; exact .inr ⟨a, v, rfl, .inl rfl⟩
    | status =>
      obtain ⟨h1, rfl, h3⟩ := writeSlot_ne hs (by simp); cases h
      exact .inr ⟨a, v, rfl, .inr (.inl ⟨BitVec.eq_of_toNat_eq (y := 0x010#9) (slot_status h3), rfl⟩)⟩
    | irqEn => obtain ⟨h1, rfl, h3⟩ := writeSlot_ne hs (by simp); cases h; exact .inr ⟨a, v, rfl, .inr (.inr (.inl rfl))⟩
    | cmd =>
      obtain ⟨h1, rfl, h3⟩ := writeSlot_ne hs (by simp)
      exact .inr ⟨a, v, rfl, .inr (.inr (.inr (.inl ⟨BitVec.eq_of_toNat_eq (y := 0x00C#9) (slot_cmd h3), h⟩)))⟩
    | din k =>
      obtain ⟨h1, rfl, h3⟩ := writeSlot_ne hs (by simp); cases h
      have := slotAt_din h3
      have h4 := (aligned_iff a).1 h1
      have e : dinBase = 64 := rfl
      exact .inr ⟨a, v, rfl, .inr (.inr (.inr (.inr (.inl ⟨k, by omega, rfl⟩))))⟩
    | key k =>
      obtain ⟨h1, rfl, h3⟩ := writeSlot_ne hs (by simp); cases h
      have := slotAt_key h3
      have h4 := (aligned_iff a).1 h1
      have e : keyBase = 256 := rfl
      exact .inr ⟨a, v, rfl, .inr (.inr (.inr (.inr (.inr ⟨k, by omega, rfl⟩))))⟩

/-- A transaction leaves the build, the reset pin, the masters and the turns alone. -/
theorem busEffect_surroundings {x : Txn} {s u : State} (h : busEffect x s = .next u) :
    u.build = s.build ∧ u.rstN = s.rstN ∧ u.masters = s.masters ∧ u.turns = s.turns := by
  rcases busEffect_cases h with e | ⟨_, v, -, e | ⟨-, e⟩ | e | ⟨-, hi⟩ | ⟨_, -, e⟩ | ⟨_, -, e⟩⟩
  case inr.inr.inr.inr.inl =>
    rcases issueWord_cases v s with ⟨hc, -⟩ | ⟨_, hc, -⟩ | ⟨hc, -⟩ | ⟨hc, -⟩ | ⟨hc, -⟩ <;>
    · rw [hi] at hc
      cases hc
      exact ⟨rfl, rfl, rfl, rfl⟩
  all_goals subst e; exact ⟨rfl, rfl, rfl, rfl⟩

/-- A step takes the next agent's turn. -/
theorem step_of_turn {s : State} {t} (h : s.nextTurn = some t) : step s = takeTurn t s.popTurn := by
  unfold step stepTurn; rw [h]

/-- A step that has a next state, said once: nothing moves, a master's transaction, a completion, or the reset pin. -/
theorem step_next_cases {s t : State} (h : step s = .next t) :
    ((t = s ∨ t = s.popTurn)) ∨
    (∃ m line u, s.nextTurn = some (.host m) ∧ s.nextLine m = some line ∧ s.rstN = true ∧
      busEffect (lineTxn line) s.popTurn = .next u ∧ t = u.answer m line (s.respond (lineTxn line))) ∨
    (s.nextTurn = some .sequencer ∧ s.rstN = true ∧ s.phase ≠ .idle ∧ t = s.popTurn.complete) ∨
    (s.nextTurn = some .resetLow ∧ t = s.popTurn.resetLow) ∨
    (s.nextTurn = some .resetHigh ∧ t = s.popTurn.resetHigh) := by
  rcases step_cases s with ⟨h0, h1⟩ | ⟨w, h0, h1⟩
  · rw [h1] at h; cases h; exact .inl (.inl rfl)
  · rw [h1] at h
    cases w with
    | host m =>
      rcases hostTurn_cases m s.popTurn with ⟨-, h2⟩ | ⟨line, -, -, h2⟩ | ⟨line, h2, h3, h4⟩
      · rw [takeTurn, h2] at h; cases h; exact .inl (.inr rfl)
      · rw [takeTurn, h2] at h; cases h
      · rw [takeTurn, h4] at h
        cases hb : busEffect (lineTxn line) s.popTurn with
        | next u => rw [hb] at h; cases h; exact .inr (.inl ⟨m, line, u, h0, h2, h3, hb, rfl⟩)
        | fault r => rw [hb] at h; cases h
        | refused r => rw [hb] at h; cases h
    | sequencer =>
      simp only [takeTurn, sequencerTurn] at h
      cases h
      by_cases hr : s.popTurn.rstN = true
      · rw [if_pos hr]
        by_cases hp : s.phase = .idle
        · rw [complete_idle (by exact hp)]; exact .inl (.inr rfl)
        · exact .inr (.inr (.inl ⟨h0, hr, hp, rfl⟩))
      · rw [if_neg hr]; exact .inl (.inr rfl)
    | resetLow => cases h; exact .inr (.inr (.inr (.inl ⟨h0, rfl⟩)))
    | resetHigh => cases h; exact .inr (.inr (.inr (.inr ⟨h0, rfl⟩)))

end Sys2Proof.Machine
end

