-- ==== Sys2Proof/Tests/Slice0.lean ====
section
/-! SUPPORT. The model's own tests. Expected results come from the encoding (30_encoding.md), the rules, and the vectors of
95_test_vectors.md, named in each docstring; the last part gives a witness for the hypotheses of each statement. -/

namespace Sys2Proof.Tests

open Sys2Proof Sys2Proof.Machine

/-! ### Helpers: small states -/

/-- The next state of an outcome; a stop gives the state given. -/
def nextOf (d : State) : Host.Outcome State Fault Refusal → State
  | .next s => s
  | .fault _ => d
  | .refused _ => d

/-- A build of width `W`, R_MAX = 20 and B_MAX = 256. -/
def buildOf (W : Width) : Build := ⟨W, 20#8, 31⟩

/-- The smallest build: R_MAX = 0, B_MAX = 8. -/
def smallBuild : Build := ⟨.w8, 0#8, 0⟩

/-- After reset, with CONFIG written: `r` rounds, a key of `n` bytes (all 0x00). -/
def configured (r : BitVec 8) (n : BitVec 16) : State := { State.reset with rounds := r, keylen := n }

/-- A context with R = 0 of 16 zero key bytes: L2.2 item K5. DINBUF is all 0x00. -/
def keyed : State :=
  { State.reset with
    keyValid := true, ctxR := 0, ctxB := 16
    S := [0x0970a4a7#64, 0x72b5661f#64, 0x7939b522#64, 0xd7ba7e35#64] ++ List.replicate 40 0 }

/-- A SCHEDULE in flight: R = 0, 16 zero key bytes. -/
def scheduling : State := nextOf State.reset (exec .schedule (configured 0 16))

/-- An ENCRYPT and a DECRYPT in flight under `keyed`. -/
def encrypting : State := nextOf State.reset (exec .encrypt keyed)
def decrypting : State := nextOf State.reset (exec .decrypt keyed)

/-- One master with one line, and the next turn. -/
def withLine (line : Line) (s : State) : State :=
  { s with masters := [⟨[line], none, false⟩], turns := [.host 0] }

/-! ### Encoding -/

/-- The three rows of R91, bit by bit. -/
theorem test_decode_schedule : decode 0b00000000000000000000000000000001#32 = .ok .schedule := by decide
theorem test_decode_encrypt : decode 0b00000000000000000000000000000010#32 = .ok .encrypt := by decide
theorem test_decode_decrypt : decode 0b00000000000000000000000000000011#32 = .ok .decrypt := by decide

/-- R92: an OP with no row, and a row's OP under a set RSV bit. -/
theorem test_decode_illegal_op : decode 0x0000000F#32 = .error .reservedOpcode := by decide
theorem test_decode_illegal_rsv : decode 0x00000011#32 = .error .reservedField := by decide

/-- The bytes in their lanes, least significant first (R66), and the numbering of spec/opcode_table.json. -/
theorem test_decodeBytes : decodeBytes [0x02#8, 0x00#8, 0x00#8, 0x00#8, 0xAA#8] = .ok (.encrypt, [0xAA#8]) := by decide
theorem test_decodeBytes_short : decodeBytes [0x02#8, 0x00#8] = .error .truncated := by decide
theorem test_decodeTableWord : decodeTableWord 32 3 = some .decrypt ∧ decodeTableWord 32 4 = none := by decide
theorem test_encode : encode .decrypt = 0x00000003#32 := by decide

/-! ### WellFormed refuses -/

theorem test_wf_commands : Instr.schedule.wellFormed = true ∧ Instr.encrypt.wellFormed = true ∧
    Instr.decrypt.wellFormed = true := by decide
theorem test_wf_width : Build.paramsWellFormed 24 20 256 = false := by decide
theorem test_wf_rounds : Build.paramsWellFormed 32 256 256 = false := by decide
theorem test_wf_bMax_multiple : Build.paramsWellFormed 32 20 12 = false := by decide
theorem test_wf_bMax_low : Build.paramsWellFormed 32 20 0 = false := by decide
theorem test_wf_bMax_high : Build.paramsWellFormed 32 20 264 = false := by decide
theorem test_wf_key_empty : (Pseudo.key []).wellFormed Build.default = false := by decide
theorem test_wf_key_long : (Pseudo.key (List.replicate 9 0#8)).wellFormed smallBuild = false := by decide
theorem test_wf_blk : (Pseudo.blk [0#8]).wellFormed Build.default = false := by decide
theorem test_wf_rdblk : (Pseudo.rdblk (List.replicate 17 0#8)).wellFormed Build.default = false := by decide

/-! ### WordOps: the O rows of L2.1 -/

theorem test_addMod : addMod 0x80000000#32 0x80000000#32 = 0#32 := by decide
theorem test_subMod : subMod 0x00000001#32 0x00000002#32 = 0xFFFFFFFF#32 := by decide
theorem test_mulMod : mulMod 0xFFFFFFFF#32 0xFFFFFFFF#32 = 1#32 := by decide
theorem test_xorWord : xorWord 0x0000FFFF#32 0x00FF00FF#32 = 0x00FFFF00#32 := by decide
theorem test_rotl : rotl 0x12345678#32 0xFFFFFFFF = 0x091A2B3C#32 := by decide
theorem test_rotr : rotr 0x12345678#32 0xFFFFFFFF = 0x2468ACF0#32 := by decide
theorem test_rotl_w8 : rotl 0x81#8 9 = 0x03#8 := by decide
theorem test_qrot : qrot 0x7FFFFFFF#32 = 0x00000030#32 := by decide
theorem test_qrot_w64 : qrot 1#64 = 0xC0#64 := by decide

/-! ### The key schedule and the cipher: L2.2 and L2.3 -/

/-- K1: a key of V2's first bytes, and zero extension of a partial Word. -/
theorem test_packKey : (State.packKey
    { State.reset with mem := [(0x100, 0x01#8), (0x101, 0x23#8), (0x102, 0x45#8), (0x103, 0x67#8), (0x104, 0xAB#8),
        (0x105, 0xCD#8)] } 5).map BitVec.toNat = [0x67452301, 0x000000AB] := by decide

/-- K2 for W = 16. -/
theorem test_initTable :
    (initTable (magicP .w16) (magicQ .w16) 4).map BitVec.toNat = [0xB7E1, 0x5618, 0xF44F, 0x9286] := by decide

/-- K3: the last entry of V1's table. -/
theorem test_roundKeyTable_V1 :
    (entry (roundKeyTable .w32 20 4 [0#32, 0#32, 0#32, 0#32]) 43).toNat = 0x4b38ac83 := by decide +kernel

/-- V2 of L1.2: the reference ciphertext, from K1's key Words; A to D of the last line of L2.3's trace. -/
theorem test_reference_V2 :
    (encryptBlock (roundKeyTable .w32 20 4 [0x67452301#32, 0xefcdab89#32, 0x34231201#32, 0x78675645#32]) 20
      ⟨0x35241302#32, 0x79685746#32, 0xbdac9b8a#32, 0xf1e0dfce#32⟩).A.toNat = 0x2f194e52 := by decide +kernel

/-- The trace of V2, round 1. -/
theorem test_encRound : encRound (w := 32) [0#32, 0#32, 0xfbcc7a4b#32, 0xe878faa4#32] 1
    ⟨0x35241302#32, 0x7eaff47e#32, 0xbdac9b8a#32, 0xd684c550#32⟩ =
    ⟨0x7eaff47e#32, 0xa17a48d4#32, 0xd684c550#32, 0xfdbc336a#32⟩ := by decide
theorem test_decRound : decRound (w := 32) [0#32, 0#32, 0xfbcc7a4b#32, 0xe878faa4#32] 1
    ⟨0x7eaff47e#32, 0xa17a48d4#32, 0xd684c550#32, 0xfdbc336a#32⟩ =
    ⟨0x35241302#32, 0x7eaff47e#32, 0xbdac9b8a#32, 0xd684c550#32⟩ := by decide

/-! ### The commands: one issue and one completion each -/

/-- K5 (R = 0, 16 zero key bytes): the table a SCHEDULE leaves. -/
theorem test_schedule_table : scheduling.complete.S.take 4 =
    [0x0970a4a7#64, 0x72b5661f#64, 0x7939b522#64, 0xd7ba7e35#64] := by decide +kernel

/-- P3 and Q3: SCHEDULE with KEYLEN = 0 fails with InvalidKey; STATUS = 0x1018. -/
theorem test_schedule_invalidKey : (nextOf State.reset (exec .schedule State.reset)).statusWord = 0x00001018#32 := by
  decide

/-- E1: what ENCRYPT leaves in DOUTBUF. -/
theorem test_encrypt_E1 : encrypting.complete.doutBlock =
    [0x22#8, 0xb5#8, 0x39#8, 0x79#8, 0xa7#8, 0xa4#8, 0x70#8, 0x09#8,
     0x35#8, 0x7e#8, 0xba#8, 0xd7#8, 0x1f#8, 0x66#8, 0xb5#8, 0x72#8] := by decide +kernel

/-- Q: ENCRYPT with no context fails with NoKey; STATUS = 0x2068. -/
theorem test_encrypt_noKey : (nextOf State.reset (exec .encrypt State.reset)).statusWord = 0x00002068#32 := by decide

/-- E1 backwards: DECRYPT of the ciphertext gives sixteen 0x00 bytes. -/
theorem test_decrypt_E1 : State.doutBlock (State.complete (nextOf State.reset (exec .decrypt
    { keyed with mem := Memory.writeBytes [] dinBase encrypting.complete.doutBlock }))) =
    List.replicate 16 0x00#8 := by decide +kernel

/-- DECRYPT with no context fails with NoKey and LAST_OP = 3. -/
theorem test_decrypt_noKey : (nextOf State.reset (exec .decrypt State.reset)).statusWord = 0x00003068#32 := by decide

/-- `step` of the state `withFetchWord` makes runs the word, from reset. -/
theorem test_withFetchWord : (nextOf State.reset (step (State.reset.withFetchWord 32 2))).statusWord = 0x00002068#32 := by
  decide +kernel

/-! ### The bus -/

theorem test_read_id : State.reset.respond (.memRead 0x000#9) = .okRead 0x52433601#32 := by decide
theorem test_read_param : State.reset.respond (.memRead 0x004#9) = .okRead 0x01001420#32 := by decide
theorem test_read_config : State.reset.respond (.memRead 0x008#9) = .okRead 0x00000014#32 := by decide
theorem test_read_narrow : State.reset.respond (.read 0x000#9 .half) = .err := by decide
theorem test_write_strobes : State.reset.respond (.write 0x008#9 0b0011#4 0#32) = .err := by decide
theorem test_read_misaligned : State.reset.respond (.memRead 0x002#9) = .err := by decide
theorem test_read_hole : State.reset.respond (.memRead 0x050#9) = .err := by decide

/-- A write of a byte 0x00 leaves the canonical form: nothing is listed for it. -/
theorem test_mem_canonical : Memory.writeBytes [(0x41, 0x11#8)] 0x40 [0x00#8, 0x00#8, 0x22#8] = [(0x42, 0x22#8)] := by
  decide

theorem test_reset_mem_wf : Memory.wf State.reset.mem = true := by decide

/-! ### Witnesses: for each statement with hypotheses, values that meet them, a clause at a time -/

/-- A SCHEDULE that starts at the upper bounds: KEYLEN = B_MAX, ROUNDS = R_MAX; and one at the lower. -/
def atUpper : State := configured 20 256
def atLower : State := configured 0 1

/-- `keyed` with other values wherever no rule reads. -/
def keyedOther : State :=
  { keyed with
    S := keyed.S.take 4 ++ List.replicate 40 7, L := List.replicate 64 9, snapR := 3, snapB := 5
    snapBlk := [1#8], draws := 8, blockRegs := ⟨1, 2, 3, 4, 5, 6, 7⟩, keyRegs := ⟨1, 2, 3, 4, 5⟩ }

/-- `keyed` with a pending REJECTED flag and its interrupt enabled. -/
def pending : State := { keyed with rejected := true, rejIe := true }

/-- A state in reset, with one master about to move. -/
def inReset : State := withLine (.wr 0x00C#9 2#32) { State.reset with rstN := false }

/-- Builds of the four widths right after reset. -/
def atWidth (W : Width) : State := State.resetOf (buildOf W)

theorem witness_CommandDecodingIsTotal : (0xF#32 ≠ 0x1#32 ∧ 0xF#32 ≠ 0x2#32 ∧ 0xF#32 ≠ 0x3#32) ∧
    keyed.busy = false ∧ encrypting.busy = true := by decide

theorem witness_EncodeAndDecodeAgree : decode 0x1#32 = .ok .schedule ∧
    decodeBytes [0x3#8, 0#8, 0#8, 0#8, 7#8] = .ok (.decrypt, [7#8]) := by decide

theorem witness_StepRunsTheDecodedCommand :
    (withLine (.wr 0x00C#9 2#32) keyed).nextTurn = some (.host 0) ∧ (withLine (.wr 0x00C#9 2#32) keyed).rstN = true ∧
    (withLine (.wr 0x00C#9 2#32) keyed).masters[0]? = some ⟨[.wr 0x00C#9 2#32], none, false⟩ ∧
    decode 2#32 = .ok .encrypt := by decide

/-- The second clause, at a register write, a window write, an ILLEGAL CMD word and a write answered ERR. -/
theorem witness_StepRunsTheDecodedCommand_lines :
    ∀ line ∈ [Line.wr 0x008#9 5#32, .wr 0x13C#9 7#32, .wr 0x00C#9 4#32, .wre 0x01C#9 0#32],
      (withLine line keyed).nextTurn = some (.host 0) ∧ (withLine line keyed).rstN = true ∧
      (withLine line keyed).masters[0]? = some ⟨[line], none, false⟩ := by decide

theorem witness_BusyIssueIsRejected : encrypting.busy = true ∧ decrypting.busy = true ∧ scheduling.busy = true := by
  decide

theorem witness_IssueIsSynchronous : keyed.busy = false ∧ encrypting.busy = true := by decide

theorem witness_PassingCommandsStart_upper : atUpper.busy = false ∧ 1 ≤ atUpper.keylen.toNat ∧
    atUpper.keylen.toNat ≤ atUpper.build.bMax ∧ atUpper.rounds.toNat ≤ atUpper.build.rMax.toNat := by decide
theorem witness_PassingCommandsStart_lower : atLower.busy = false ∧ 1 ≤ atLower.keylen.toNat ∧
    atLower.keylen.toNat ≤ atLower.build.bMax ∧ atLower.rounds.toNat ≤ atLower.build.rMax.toNat := by decide
theorem witness_PassingCommandsStart_block : keyed.busy = false ∧ keyed.keyValid = true := by decide

theorem witness_FailingCommandsReport_invalidKey :
    (configured 21 0).busy = false ∧ (configured 21 0).keylen.toNat = 0 := by decide
theorem witness_FailingCommandsReport_keyTooLong :
    (configured 21 257).busy = false ∧ (configured 21 257).keylen.toNat > (configured 21 257).build.bMax := by decide
theorem witness_FailingCommandsReport_invalidRounds : (configured 21 256).busy = false ∧
    1 ≤ (configured 21 256).keylen.toNat ∧ (configured 21 256).keylen.toNat ≤ (configured 21 256).build.bMax ∧
    (configured 21 256).rounds.toNat > (configured 21 256).build.rMax.toNat := by decide
theorem witness_FailingCommandsReport_noKey : State.reset.busy = false ∧ State.reset.keyValid = false := by decide

theorem witness_IllegalWordsFail_rsv : keyed.busy = false ∧ (0x12#32 : BusWord).extractLsb' 4 28 ≠ 0#28 := by decide
theorem witness_IllegalWordsFail_op : keyed.busy = false ∧ (0x4#32 : BusWord).extractLsb' 0 4 ≠ 0x1#4 ∧
    (0x4#32 : BusWord).extractLsb' 0 4 ≠ 0x2#4 ∧ (0x4#32 : BusWord).extractLsb' 0 4 ≠ 0x3#4 := by decide

theorem witness_FailureIsPrecise : keyed.busy = false ∧
    ∃ t, issueWord 0x12#32 keyed = .next t ∧ t.err = true := ⟨rfl, _, rfl, rfl⟩

theorem witness_SchedulingBuildsTheContext : atUpper.busy = false ∧ 1 ≤ atUpper.keylen.toNat ∧
    atUpper.keylen.toNat ≤ atUpper.build.bMax ∧ atUpper.rounds.toNat ≤ atUpper.build.rMax.toNat := by decide

theorem witness_BlockCommandsWriteTheResult :
    Memory.wf keyed.mem = true ∧ keyed.busy = false ∧ keyed.keyValid = true := by decide

theorem witness_CompletionIsOneStep : encrypting.nextTurn = some .sequencer ∧ encrypting.rstN = true ∧
    encrypting.phase = .enc ∧ decrypting.nextTurn = some .sequencer ∧ decrypting.phase = .dec ∧
    scheduling.nextTurn = some .sequencer ∧ scheduling.phase = .sched := by decide
theorem witness_CompletionIsOneStep_idle : ({ keyed with turns := [.sequencer] } : State).nextTurn = some .sequencer ∧
    keyed.rstN = true ∧ keyed.phase = .idle := by decide

theorem witness_BlockCommandsAreIndependent : Memory.wf keyed.mem = true ∧ Memory.wf keyedOther.mem = true ∧
    keyed.busy = false ∧ keyedOther.busy = false ∧ keyed.keyValid = true ∧ keyedOther.keyValid = true ∧
    keyed.build = keyedOther.build ∧ keyed.ctxR = keyedOther.ctxR ∧
    (∀ k, k < 2 * keyed.ctxR.toNat + 4 → keyed.S.getD k 0 = keyedOther.S.getD k 0) ∧
    keyed.dinBlock = keyedOther.dinBlock ∧ keyed.S ≠ keyedOther.S := by decide

/-- Two states that differ in S, L and a key byte past the key. -/
theorem witness_SchedulingIsDeterministic :
    ∃ s t : State, s.busy = false ∧ t.busy = false ∧ s.build = t.build ∧ s.rounds = t.rounds ∧ s.keylen = t.keylen ∧
      1 ≤ s.keylen.toNat ∧ s.keylen.toNat ≤ s.build.bMax ∧ s.rounds.toNat ≤ s.build.rMax.toNat ∧
      (∀ k, k < s.keylen.toNat → s.keyByte k = t.keyByte k) ∧ s.mem ≠ t.mem ∧ s.L ≠ t.L :=
  ⟨configured 0 1, { configured 0 1 with mem := [(0x101, 5#8)], L := List.replicate 64 1 }, by decide⟩

/-- A 1-byte key and the same key with three 0x00 bytes after it: both one Word. -/
theorem witness_TrailingZeroBytesDoNotMatter :
    ∃ s t : State, s.busy = false ∧ t.busy = false ∧ s.build = t.build ∧ s.rounds = t.rounds ∧
      s.rounds.toNat ≤ s.build.rMax.toNat ∧ 1 ≤ s.keylen.toNat ∧ s.keylen.toNat ≤ t.keylen.toNat ∧
      t.keylen.toNat ≤ s.build.bMax ∧ s.build.keyWords s.keylen.toNat = s.build.keyWords t.keylen.toNat ∧
      (∀ k, k < s.keylen.toNat → s.keyByte k = t.keyByte k) ∧
      (∀ k, s.keylen.toNat ≤ k → k < t.keylen.toNat → t.keyByte k = 0x00#8) ∧ s.keylen ≠ t.keylen :=
  ⟨{ configured 0 1 with mem := [(0x100, 9#8)] }, { configured 0 4 with mem := [(0x100, 9#8)] }, by
    refine ⟨by decide, by decide, by decide, by decide, by decide, by decide, by decide, by decide, by decide,
      by decide, fun k h1 h2 => ?_, by decide⟩
    have h3 : k < 4 := h2
    have h4 : 1 ≤ k := h1
    interval_cases k <;> decide⟩

theorem witness_KeyMixingLoop : ∃ x : Mix 32, x.KI < x.S.length ∧ x.KJ < x.L.length ∧ x.KI < 4 ∧ x.KJ < 2 :=
  ⟨⟨[0#32, 0#32, 0#32, 0#32], [0#32, 0#32], 0#32, 0#32, 3, 1⟩, by decide⟩

theorem witness_InitialTableClosedForm : ∃ i T : Nat, i < T := ⟨43, 44, by decide⟩

theorem witness_KeyPackingIsLittleEndian : ∃ (s : State) (b j k : Nat),
    j < (s.packKey b).length ∧ k < s.build.u ∧ j * s.build.u + k = b ∧ j * s.build.u < b :=
  ⟨State.reset, 5, 1, 1, by decide⟩

theorem witness_KeyPackingIsLittleEndian_start : atUpper.busy = false ∧ 1 ≤ atUpper.keylen.toNat ∧
    atUpper.keylen.toNat ≤ atUpper.build.bMax ∧ atUpper.rounds.toNat ≤ atUpper.build.rMax.toNat := by decide

theorem witness_RotationsMoveBits : ∃ w i : Nat, i < w ∧ 0 < w := ⟨8, 7, by decide⟩

theorem witness_EncryptionFunction : 2 * 20 + 4 ≤ (List.replicate 44 1#32).length := by decide +kernel

theorem witness_DecryptionFunction : 2 * 0 + 4 ≤ (List.replicate 4 1#32).length := by decide +kernel

theorem witness_RoundTripLaw :
    Memory.wf keyed.mem = true ∧ keyed.busy = false ∧ keyed.keyValid = true := by decide

theorem witness_CipherReadsOnlyTheContextTable : ∃ S S' : List (Word 32),
    (∀ k, k < 2 * 0 + 4 → entry S k = entry S' k) ∧ S ≠ S' :=
  ⟨[1#32, 2#32, 3#32, 4#32, 5#32], [1#32, 2#32, 3#32, 4#32, 6#32], by decide⟩

theorem witness_WordByteOrder : (List.replicate 16 0#8).length = 4 * (Width.w32.bits / 8) ∧ 3 < 4 ∧
    3 < Width.w32.bits / 8 := by decide

theorem witness_MixedWidths : (atWidth .w8).build.W = .w8 ∧ (atWidth .w16).build.W = .w16 ∧
    (atWidth .w32).build.W = .w32 ∧ (atWidth .w64).build.W = .w64 := by decide
/-- The last bus word of each block window at each width, and of the KEY window. -/
theorem witness_MixedWidths_last : 4 * 0 < (atWidth .w8).dinBlock.length ∧ 4 * 1 < (atWidth .w16).doutBlock.length ∧
    4 * 3 < (atWidth .w32).doutBlock.length ∧ 8 * 3 < (atWidth .w64).dinBlock.length ∧
    4 * 63 < ((List.range (atWidth .w32).build.bMax).map (atWidth .w32).keyByte).length := by decide +kernel

theorem witness_ByteLanes : Memory.wf (atWidth .w64).mem = true ∧ 4 * 7 < (atWidth .w64).build.blkBytes ∧
    4 * 63 < (atWidth .w64).build.bMax := by decide

/-- A misaligned offset, a narrow access, and both ends of each unmapped range of the default build. -/
theorem witness_RefusedTransactions : State.reset.respond (.memRead 0x01C#9) = .err ∧
    (0x001#9 : Offset).extractLsb' 0 2 ≠ 0#2 ∧ ReadSize.half ≠ .word ∧ 0b0111#4 ≠ 0b1111#4 ∧
    0x040 + State.reset.build.blkBytes ≤ (0x050#9 : Offset).toNat ∧ (0x05F#9 : Offset).toNat ≤ 0x05F ∧
    0x060 + State.reset.build.blkBytes ≤ (0x070#9 : Offset).toNat ∧
    0x100 + (State.resetOf smallBuild).build.bMax ≤ (0x108#9 : Offset).toNat := by decide

theorem witness_AccessRights : 4 * 3 < State.reset.build.blkBytes ∧ 4 * 63 < State.reset.build.bMax ∧
    State.reset.respond (.memWrite 0x018#9 5#32) = .err ∧
    0x12345678#32 &&& 0xFFFF00FF#32 = 0x1234FF78#32 &&& 0xFFFF00FF#32 ∧
    0xFFFFFEF3#32 &&& 0x0000010C#32 = 0#32 &&& 0x0000010C#32 ∧
    0xFFFFFFF8#32 &&& 0x00000007#32 = 0#32 &&& 0x00000007#32 := by decide

theorem witness_SideEffects : Memory.wf State.reset.mem = true ∧ 0x008#9 ≠ 0x00C#9 ∧ 0x008#9 ≠ 0x010#9 ∧
    ∃ t, busEffect (.memWrite 0x008#9 5#32) State.reset = .next t := ⟨by decide, by decide, by decide, _, rfl⟩

theorem witness_IdentityRegisters : ∃ t, step keyed = .next t := ⟨_, rfl⟩

theorem witness_IrqEnableAndContextRegisters : State.reset.keyValid = false ∧ keyed.keyValid = true := by decide

theorem witness_InterruptOutput : pending.irq = true ∧ keyed.irq = false := by decide

theorem witness_InterruptFlagsAndClearing : (∃ t, busEffect (.memWrite 0x014#9 0#32) pending = .next t) ∧
    (∃ t, busEffect (.memWrite 0x010#9 4#32) pending = .next t) ∧ pending.busy = false ∧
    (∃ t, busEffect (.memWrite 0x00C#9 0xF#32) pending = .next t) ∧
    (∃ t, step (withLine (.wr 0x010#9 0x100#32) pending) = .next t ∧ t.rejected = false) ∧ pending.irq = true :=
  ⟨⟨_, rfl⟩, ⟨_, rfl⟩, rfl, ⟨_, rfl⟩, ⟨_, rfl, rfl⟩, rfl⟩

/-- The same registers and DIN and DOUT windows; another key in KEYBUF and another table. -/
theorem witness_KeyMaterialIsNeverReadable : SameToHost keyed { keyedOther with mem := [(0x100, 1#8)], S := [] } := by
  constructor <;> decide

theorem witness_DoutChangesOnlyAtCompletion : ∃ t, step encrypting = .next t ∧ 0 < encrypting.build.blkBytes ∧
    t.doutByte 0 ≠ encrypting.doutByte 0 := ⟨_, rfl, by decide +kernel⟩

theorem witness_RoundKeysWrittenOnlyBySchedule : (∃ t, step scheduling = .next t ∧ t.keyValid ≠ scheduling.keyValid) ∧
    (∃ t, step scheduling = .next t ∧ t.S.take 4 ≠ scheduling.S.take 4) := ⟨⟨_, rfl, by decide⟩, ⟨_, rfl, by decide +kernel⟩⟩

/-- A start, a completion, and a step that leaves an operation in flight. -/
theorem witness_PhaseChanges :
    (∃ t, step (withLine (.wr 0x00C#9 2#32) keyed) = .next t ∧ keyed.phase = .idle ∧ t.phase ≠ .idle) ∧
    (∃ t, step encrypting = .next t ∧ encrypting.phase ≠ .idle ∧ t.phase = .idle) ∧
    (∃ t, step (withLine (.rd 0x010#9) encrypting) = .next t ∧ encrypting.phase ≠ .idle ∧ t.phase ≠ .idle) :=
  ⟨⟨_, rfl, by decide, by decide⟩, ⟨_, rfl, by decide, by decide⟩, ⟨_, rfl, by decide, by decide⟩⟩

theorem witness_InFlightInputsAreFixed : Memory.wf encrypting.mem = true ∧ encrypting.phase ≠ .idle ∧
    Memory.wf scheduling.mem = true ∧ scheduling.phase ≠ .idle := by decide

theorem witness_InFlightOperationCompletes :
    ∃ s : State, s.rstN = true ∧ s.phase ≠ .idle ∧ s.turns.length = 2 ∧ ∀ x ∈ s.turns, x ≠ .resetLow :=
  ⟨{ encrypting with turns := [.host 0, .resetHigh] }, by decide⟩

theorem witness_PlacementDecidesRejection : atLower.busy = false ∧ 1 ≤ atLower.keylen.toNat ∧
    atLower.keylen.toNat ≤ atLower.build.bMax ∧ atLower.rounds.toNat ≤ atLower.build.rMax.toNat := by decide

theorem witness_StateAfterReset : 4 * 3 < State.reset.build.blkBytes ∧ 4 * 0 < smallBuild.blkBytes := by decide

theorem witness_ResetAbandonsEverything :
    ({ encrypting with turns := [.resetLow] } : State).nextTurn = some .resetLow ∧
    ({ State.reset with rstN := false, turns := [.sequencer] } : State).nextTurn = some .sequencer ∧
    ({ State.reset with rstN := false, turns := [.resetHigh] } : State).nextTurn = some .resetHigh := by decide

/-- The only stop: a line performed in reset. -/
theorem witness_OnlyResetStopsTransactions : inReset.rstN = false ∧ inReset.nextTurn = some (.host 0) ∧
    inReset.nextLine 0 = some (.wr 0x00C#9 2#32) ∧ step inReset = .fault .transactionDuringReset ∧
    keyed.rstN = true := ⟨rfl, rfl, rfl, rfl, rfl⟩

/-- At W = 32 a container fits when it is below 2^32. -/
theorem fits_w32 {b : Build} (h : b.W = .w32) {l : List Stored} (hl : l.all (fun x => decide (x.toNat < 4294967296)) = true) :
    ∀ x ∈ l, fits b x := by
  intro x hx
  have := of_decide_eq_true (List.all_eq_true.1 hl x hx)
  simpa [fits, Build.bits, h, Width.bits] using this

/-- A state with a context, and ones with an operation in flight, have the invariant and a next state. -/
theorem witness_StepKeepsInvariant_keyed : Inv keyed ∧ ∃ t, step keyed = .next t :=
  ⟨by constructor <;> first | exact fits_w32 rfl (by decide +kernel) | decide +kernel, _, rfl⟩
theorem witness_StepKeepsInvariant_encrypting : Inv encrypting ∧ ∃ t, step encrypting = .next t :=
  ⟨by constructor <;> first | exact fits_w32 rfl (by decide +kernel) | decide +kernel, _, rfl⟩
theorem witness_StepKeepsInvariant_scheduling : Inv scheduling ∧ ∃ t, step scheduling = .next t :=
  ⟨by constructor <;> first | exact fits_w32 rfl (by decide +kernel) | decide +kernel, _, rfl⟩

theorem witness_UnspecifiedStorageIsUnobservable : SameReadable keyed keyedOther ∧ keyed ≠ keyedOther :=
  ⟨by constructor <;> decide, by decide⟩

/-- A line of each kind with the next turn; a POLL whose data matches and one whose data does not. -/
theorem witness_ScriptLines :
    (∀ line ∈ [Line.wr 0x008#9 1#32, .wre 0x000#9 1#32, .rd 0x000#9, .rdExpect 0x000#9 0x52433601#32, .rde 0x002#9,
        .poll 0x010#9 1#32 0#32],
      (withLine line keyed).nextTurn = some (.host 0) ∧ (withLine line keyed).rstN = true ∧
      (withLine line keyed).masters[0]? = some ⟨[line], none, false⟩ ∧
      (nextOf State.reset (step (withLine line keyed))).masters = [⟨[], some (keyed.respond (lineTxn line)), false⟩]) ∧
    (∃ v, encrypting.respond (.memRead 0x010#9) = .okRead v ∧ v &&& 1#32 ≠ 0#32) := ⟨by decide, _, rfl, by decide⟩
theorem witness_ScriptLines_pollErr : State.reset.respond (.memRead 0x01C#9) = .err ∧
    (withLine (.poll 0x01C#9 1#32 0#32) State.reset).nextTurn = some (.host 0) ∧
    (withLine (.poll 0x01C#9 1#32 0#32) State.reset).rstN = true ∧
    (nextOf keyed (step (withLine (.poll 0x01C#9 1#32 0#32) State.reset))).masters = [⟨[], some .err, true⟩] := by decide

theorem witness_KeyAndBlockPseudoInstructions : Memory.wf keyed.mem = true ∧
    (Pseudo.key (List.replicate 256 1#8)).wellFormed keyed.build = true ∧
    (Pseudo.key [1#8]).wellFormed keyed.build = true ∧
    [1#8].length ≤ 3 ∧ 3 < 4 * (([1#8].length + 3) / 4) ∧
    (Pseudo.blk (List.replicate 16 1#8)).wellFormed keyed.build = true := by decide +kernel

theorem witness_EndOfRun : keyed.turns = [] ∧ runOver keyed = true ∧ encrypting.turns = [] ∧
    encrypting.rstN = true ∧ encrypting.busy = true := by decide

theorem witness_BuildElaboration : (64 = 8 ∨ 64 = 16 ∨ 64 = 32 ∨ 64 = 64) ∧ 255 ≤ 255 ∧ 8 % 8 = 0 ∧ 8 ≤ 8 ∧ 8 ≤ 256 ∧
    ¬((24 = 8 ∨ 24 = 16 ∨ 24 = 32 ∨ 24 = 64) ∧ 255 ≤ 255 ∧ 8 % 8 = 0 ∧ 8 ≤ 8 ∧ 8 ≤ 256) := by decide

end Sys2Proof.Tests
end

section
/-! Elaboration of a build (00_scope.md R5 to R7, 60_exceptions.md R203). What elaborates has the
parameters it was elaborated from, and parameters elaborate exactly when they are well formed. -/

open Sys2Proof

namespace Sys2Proof.Build

theorem paramsWellFormed_iff {w rMax bMax : Nat} : paramsWellFormed w rMax bMax = true ↔
    (w = 8 ∨ w = 16 ∨ w = 32 ∨ w = 64) ∧ rMax ≤ 255 ∧ bMax % 8 = 0 ∧ 8 ≤ bMax ∧ bMax ≤ 256 := by
  simp [paramsWellFormed, or_assoc, and_assoc]

theorem bits_of_widthOf {w : Nat} {W : Width} (h : widthOf w = some W) : W.bits = w := by
  unfold widthOf at h
  split at h <;> cases h <;> rfl

/-- A build has well-formed parameters by construction. -/
theorem paramsWellFormed_of_build (b : Build) : paramsWellFormed b.bits b.rMax.toNat b.bMax = true := by
  have hr : b.rMax.toNat < 256 := b.rMax.isLt
  have hb : b.bUnits.val < 32 := b.bUnits.isLt
  have hm : b.bMax = 8 * (b.bUnits.val + 1) := rfl
  exact paramsWellFormed_iff.2 ⟨Machine.bits_cases b, by omega⟩

/-- Whatever elaborates has the parameters it was elaborated from. -/
theorem params_of_elaborate {w rMax bMax : Nat} {b : Build} (h : elaborate w rMax bMax = some b) :
    b.bits = w ∧ b.rMax.toNat = rMax ∧ b.bMax = bMax := by
  unfold elaborate at h
  split at h
  next => cases h
  next W hW =>
    split at h
    next hp =>
      obtain rfl := Option.some.inj h
      refine ⟨bits_of_widthOf hW, Nat.mod_eq_of_lt (by omega), ?_⟩
      change 8 * (bMax / 8 - 1 + 1) = bMax
      omega
    next => cases h

/-- Well-formed parameters elaborate. -/
theorem exists_elaborate_of_paramsWellFormed {w rMax bMax : Nat} (h : paramsWellFormed w rMax bMax = true) :
    ∃ b, elaborate w rMax bMax = some b := by
  obtain ⟨hw, hp⟩ := paramsWellFormed_iff.1 h
  obtain ⟨W, hW⟩ : ∃ W, widthOf w = some W := by
    rcases hw with rfl | rfl | rfl | rfl <;> exact ⟨_, rfl⟩
  exact ⟨_, by simp only [elaborate, hW]; exact dif_pos hp⟩

/-- The well-formedness check says which parameters elaborate. -/
theorem paramsWellFormed_iff_exists_elaborate {w rMax bMax : Nat} :
    paramsWellFormed w rMax bMax = true ↔ ∃ b, elaborate w rMax bMax = some b := by
  refine ⟨exists_elaborate_of_paramsWellFormed, ?_⟩
  rintro ⟨b, hb⟩
  obtain ⟨rfl, rfl, rfl⟩ := params_of_elaborate hb
  exact paramsWellFormed_of_build b

end Sys2Proof.Build

/-- Settles O58: the check is equivalent to the legality conditions and to elaboration's giving a build, and a build given has
the parameters asked for. -/
theorem buildElaboration : Obligations.BuildElaboration := by
  intro w rMax bMax
  refine ⟨fun hlegal => ?_, fun hillegal => ?_, Build.paramsWellFormed_iff_exists_elaborate⟩
  · obtain ⟨b, hb⟩ := Build.exists_elaborate_of_paramsWellFormed (Build.paramsWellFormed_iff.2 hlegal)
    exact ⟨b, hb, Build.params_of_elaborate hb⟩
  · refine Option.eq_none_iff_forall_ne_some.2 fun b hb => hillegal ?_
    exact Build.paramsWellFormed_iff.1 (Build.paramsWellFormed_iff_exists_elaborate.2 ⟨b, hb⟩)
end

section
/-! The invariant of R24, R27 to R30 and R36, kept by every update of the state, then by a transaction, a completion and a
step. -/

namespace Sys2Proof.Machine

open Sys2Proof

/-! ### What fits the width -/

theorem fits_store {b : Build} (x : Word b.bits) : fits b (store x) := store_toNat_lt x

theorem fits_zero (b : Build) : fits b 0 := Nat.two_pow_pos b.bits

theorem fits_of_mem_map_store {b : Build} {l : List (Word b.bits)} {x : Stored} (h : x ∈ l.map store) : fits b x := by
  obtain ⟨y, -, rfl⟩ := List.mem_map.1 h
  exact fits_store y

theorem fits_of_mem_drawS {b : Build} {d lo n : Nat} {x : Stored} (h : x ∈ drawS b d lo n) : fits b x := by
  obtain ⟨k, -, rfl⟩ := List.mem_map.1 h
  exact fits_store _

theorem fits_of_mem_drawL {b : Build} {d : Nat} {x : Stored} (h : x ∈ drawL b d) : fits b x := by
  obtain ⟨k, -, rfl⟩ := List.mem_map.1 h
  exact fits_store _

/-- The registers a draw of the block registers writes. -/
theorem drawBlockRegs_fit (b : Build) (d : Nat) :
    ∀ x ∈ [(drawBlockRegs b d).A, (drawBlockRegs b d).B, (drawBlockRegs b d).C, (drawBlockRegs b d).D,
      (drawBlockRegs b d).t, (drawBlockRegs b d).u], fits b x := by
  simp [drawBlockRegs, fits_store]

theorem drawKeyRegs_fit (b : Build) (d : Nat) : ∀ x ∈ [(drawKeyRegs b d).KA, (drawKeyRegs b d).KB], fits b x := by
  simp [drawKeyRegs, fits_store]

/-! ### The windows -/

theorem inWindow_iff (b : Build) (a : Nat) : inWindow b a = true ↔
    (dinBase ≤ a ∧ a < dinBase + b.blkBytes) ∨ (doutBase ≤ a ∧ a < doutBase + b.blkBytes) ∨
      (keyBase ≤ a ∧ a < keyBase + b.bMax) := by
  simp [inWindow, or_assoc]

theorem length_laneBytes (v : BusWord) : (laneBytes v).length = 4 := rfl

theorem length_encryptedBytes (s : State) : s.encryptedBytes.length = s.build.blkBytes :=
  length_bytesOfBlock _

theorem length_decryptedBytes (s : State) : s.decryptedBytes.length = s.build.blkBytes :=
  length_bytesOfBlock _

/-! ### The flags -/

theorem statusWord_resetOf (b : Build) : (State.resetOf b).statusWord = 0#32 := by
  simp [State.statusWord, State.resetOf, State.busy, ErrorCode.bits, flagBit]

theorem irqEnWord_resetOf (b : Build) : (State.resetOf b).irqEnWord = 0#32 := by
  simp [State.irqEnWord, State.resetOf, flagBit]

/-- A STATUS write clears ERR and ERRCODE together or keeps both (10_state.md R36). -/
theorem writeStatus_err_errcode (s : State) (v : BusWord) :
    ((s.writeStatus v).err = false ∧ (s.writeStatus v).errcode = .none) ∨
    ((s.writeStatus v).err = s.err ∧ (s.writeStatus v).errcode = s.errcode) := by
  simp only [State.writeStatus_err, State.writeStatus_errcode]
  cases v.getLsbD 3 with
  | true => simp
  | false => simp

namespace Inv

variable {s : State}

/-! ### Updates outside the core -/

theorem popTurn (h : Inv s) : Inv s.popTurn := { h with }

theorem answer (h : Inv s) (m : Nat) (line : Line) (r : Response) : Inv (s.answer m line r) := { h with }

/-! ### Register writes, and memory -/

theorem writeConfig (h : Inv s) (v : BusWord) : Inv (s.writeConfig v) := { h with }

theorem writeIrqEn (h : Inv s) (hr : s.rstN = true) (v : BusWord) : Inv (s.writeIrqEn v) :=
  { h with in_reset := by simp [hr] }

theorem writeStatus (h : Inv s) (hr : s.rstN = true) (v : BusWord) : Inv (s.writeStatus v) := by
  obtain ⟨hnone, hreported, hsome⟩ : ((s.writeStatus v).err = false → (s.writeStatus v).errcode = .none) ∧
      ((s.writeStatus v).errcode ≠ .invalidWordWidth ∧ (s.writeStatus v).errcode ≠ .invalidBlockLength) ∧
      ((s.writeStatus v).err = true → (s.writeStatus v).errcode ≠ .none) := by
    rcases writeStatus_err_errcode s v with ⟨he, hc⟩ | ⟨he, hc⟩ <;> rw [he, hc]
    · simp
    · exact ⟨h.err_code, h.code_reported, h.code_of_err⟩
  exact
  { h with
    busy_flags := fun hb => by simp [h.busy_flags hb]
    done_err := fun hd => h.done_err (by simp at hd; tauto)
    err_code := hnone
    code_reported := hreported
    code_of_err := hsome
    done_context := fun hd => h.done_context (by simp at hd; tauto)
    in_reset := by simp [hr] }

/-- Bytes written inside a window. -/
theorem writeBytes (h : Inv s) {a : Nat} {vs : List Byte}
    (hw : ∀ k, a ≤ k → k < a + vs.length → inWindow s.build k = true) :
    Inv { s with mem := Memory.writeBytes s.mem a vs } :=
  { h with
    mem_wf := Memory.wf_writeBytes h.mem_wf a vs
    mem_in_windows := fun c hc => by
      rcases Memory.mem_writeBytes hc with ⟨h1, h2⟩ | hc
      · exact hw c.1 h1 h2
      · exact h.mem_in_windows c hc }

theorem storeWord_din (h : Inv s) {k : Nat} (hk : k + 4 ≤ s.build.blkBytes) (v : BusWord) :
    Inv (s.storeWord (dinBase + k) v) :=
  h.writeBytes fun j h1 h2 => (inWindow_iff _ _).2 (.inl (by rw [length_laneBytes] at h2; omega))

theorem storeWord_key (h : Inv s) {k : Nat} (hk : k + 4 ≤ s.build.bMax) (v : BusWord) :
    Inv (s.storeWord (keyBase + k) v) :=
  h.writeBytes fun j h1 h2 => (inWindow_iff _ _).2 (.inr (.inr (by rw [length_laneBytes] at h2; omega)))

/-! ### The issue of a command -/

theorem reject (h : Inv s) (hr : s.rstN = true) : Inv s.reject := { h with in_reset := by simp [hr] }

theorem issueEffects (h : Inv s) (hp : s.phase = .idle) (hr : s.rstN = true) (op : BitVec 4) :
    Inv (s.issueEffects op) :=
  { h with
    sched_legal := by simp [hp]
    enc_legal := by simp [hp]
    dec_legal := by simp [hp]
    busy_flags := by simp
    done_err := by simp
    err_code := by simp
    code_reported := by simp
    code_of_err := by simp
    done_context := by simp
    in_reset := by simp [hr] }

theorem raiseError (h : Inv s) (hp : s.phase = .idle) (hd : s.done = false) (hr : s.rstN = true) {code : ErrorCode}
    (hc : code ≠ .none ∧ code ≠ .invalidWordWidth ∧ code ≠ .invalidBlockLength) : Inv (s.raiseError code) :=
  { h with
    busy_flags := by simp [hp]
    done_err := by simp [hd]
    err_code := by simp
    code_reported := hc.2
    code_of_err := fun _ => hc.1
    in_reset := by simp [hr] }

/-- SCHEDULE's start: the key words fit L because the key fits the buffer. -/
theorem startSchedule (h : Inv s) (hd : s.done = false) (he : s.err = false) (ho : s.lastOp = 0x1#4)
    (hr : s.rstN = true) (h1 : 1 ≤ s.keylen.toNat) (hb : s.keylen.toNat ≤ s.build.bMax)
    (hR : s.rounds.toNat ≤ s.build.rMax.toNat) : Inv s.startSchedule :=
  { h with
    L_length := by
      have hc := keyWords_le s.build hb
      have hl := h.L_length
      simp
      omega
    L_fits := fun x hx => by
      rcases List.mem_append.1 hx with hx | hx
      · exact fits_of_mem_map_store hx
      · exact h.L_fits x (List.mem_of_mem_drop hx)
    context_legal := by simp
    no_context := by simp
    sched_legal := fun _ => ⟨rfl, hR, h1, hb, ho⟩
    enc_legal := by simp
    dec_legal := by simp
    busy_flags := fun _ => ⟨hd, he⟩
    done_context := by simp [hd]
    in_reset := by simp [hr] }

theorem startBlock (h : Inv s) (hd : s.done = false) (he : s.err = false) (hk : s.keyValid = true)
    (hr : s.rstN = true) {phase : Phase} (ho : phase = .enc ∧ s.lastOp = 0x2#4 ∨ phase = .dec ∧ s.lastOp = 0x3#4) :
    Inv (s.startBlock phase) :=
  { h with
    sched_legal := by rcases ho with ⟨rfl, -⟩ | ⟨rfl, -⟩ <;> simp
    enc_legal := by rcases ho with ⟨rfl, ho⟩ | ⟨rfl, -⟩ <;> simp [*]
    dec_legal := by rcases ho with ⟨rfl, -⟩ | ⟨rfl, ho⟩ <;> simp [*]
    snapBlk_length := length_dinBlock s
    busy_flags := fun _ => ⟨hd, he⟩
    in_reset := by simp [hr] }

theorem issueWord {w : BusWord} {t : State} (h : Inv s) (hr : s.rstN = true) (ht : issueWord w s = .next t) : Inv t := by
  rcases issueWord_cases w s with ⟨e, -⟩ | ⟨code, e, hb, hc⟩ | ⟨e, hb, h1, h2, h3⟩ | ⟨e, hb, hk⟩ | ⟨e, hb, hk⟩ <;>
    obtain rfl := Host.Outcome.next.inj (e.symm.trans ht)
  · exact h.reject hr
  · refine (h.issueEffects ((busy_eq_false s).1 hb) hr _).raiseError ((busy_eq_false s).1 hb) rfl hr ?_
    rcases hc with rfl | rfl | rfl | rfl | rfl <;> decide
  · exact (h.issueEffects ((busy_eq_false s).1 hb) hr _).startSchedule rfl rfl rfl hr h1 h2 h3
  · exact (h.issueEffects ((busy_eq_false s).1 hb) hr _).startBlock rfl rfl hk hr (.inl ⟨rfl, rfl⟩)
  · exact (h.issueEffects ((busy_eq_false s).1 hb) hr _).startBlock rfl rfl hk hr (.inr ⟨rfl, rfl⟩)

theorem busEffect {x : Txn} {t : State} (h : Inv s) (hr : s.rstN = true) (ht : busEffect x s = .next t) : Inv t := by
  rcases busEffect_cases ht with rfl | ⟨a, v, -, rfl | ⟨-, rfl⟩ | rfl | ⟨-, hi⟩ | ⟨k, hk, rfl⟩ | ⟨k, hk, rfl⟩⟩
  · exact h
  · exact h.writeConfig v
  · exact h.writeStatus hr v
  · exact h.writeIrqEn hr v
  · exact h.issueWord hr hi
  · exact h.storeWord_din hk v
  · exact h.storeWord_key hk v

/-! ### Completion and reset -/

/-- SCHEDULE's completion: the table fits S because R is at most R_MAX. -/
theorem completeSchedule (h : Inv s) (hp : s.phase = .sched) (hr : s.rstN = true) : Inv s.completeSchedule := by
  obtain ⟨-, hR, h1, hb, ho⟩ := h.sched_legal hp
  obtain ⟨-, he⟩ := h.busy_flags ((busy_eq_true s).2 (by simp [hp]))
  exact
  { h with
    S_length := by
      have hT : tableLen s.snapR.toNat ≤ s.build.tableWords := by
        simp only [tableLen, Build.tableWords]
        omega
      have hl := h.S_length
      simp
      omega
    L_length := length_drawL _ _
    S_fits := fun x hx => by
      rcases List.mem_append.1 hx with hx | hx
      · exact fits_of_mem_map_store hx
      · exact fits_of_mem_drawS hx
    L_fits := fun x hx => fits_of_mem_drawL hx
    regs_fit := by
      have hk := drawKeyRegs_fit s.build s.draws
      have hf := h.regs_fit
      simp only [List.forall_mem_cons] at hk hf ⊢
      tauto
    context_legal := fun _ => ⟨hR, h1, hb⟩
    no_context := by simp
    sched_legal := by simp
    enc_legal := by simp
    dec_legal := by simp
    snapBlk_length := length_drawSnapBlk _ _
    busy_flags := by simp
    done_err := by simp [he]
    done_context := fun _ => ⟨rfl, .inl ho⟩
    in_reset := by simp [hr] }

/-- A block's completion: the result fills the DOUT window. -/
theorem completeBlock (h : Inv s) (hp : s.phase = .enc ∨ s.phase = .dec) (hr : s.rstN = true) {result : List Byte}
    (hl : result.length = s.build.blkBytes) : Inv (s.completeBlock result) := by
  obtain ⟨-, he⟩ := h.busy_flags ((busy_eq_true s).2 (by rcases hp with hp | hp <;> simp [hp]))
  have hm := h.writeBytes (a := doutBase) (vs := result) fun k h1 h2 =>
    (inWindow_iff _ _).2 (.inr (.inl ⟨h1, hl ▸ h2⟩))
  exact
  { hm with
    regs_fit := by
      have hb := drawBlockRegs_fit s.build s.draws
      have hf := h.regs_fit
      simp only [List.forall_mem_cons] at hb hf ⊢
      tauto
    sched_legal := by simp
    enc_legal := by simp
    dec_legal := by simp
    snapBlk_length := length_drawSnapBlk _ _
    busy_flags := by simp
    done_err := by simp [he]
    done_context := fun _ => by
      rcases hp with hp | hp
      · obtain ⟨hk, ho⟩ := h.enc_legal hp
        exact ⟨hk, .inr (.inl ho)⟩
      · obtain ⟨hk, ho⟩ := h.dec_legal hp
        exact ⟨hk, .inr (.inr ho)⟩
    in_reset := by simp [hr] }

theorem complete (h : Inv s) (hr : s.rstN = true) : Inv s.complete := by
  cases hp : s.phase with
  | idle => exact (complete_idle hp).symm ▸ h
  | sched => exact (complete_sched hp).symm ▸ h.completeSchedule hp hr
  | enc => exact (complete_enc hp).symm ▸ h.completeBlock (.inl hp) hr (length_encryptedBytes s)
  | dec => exact (complete_dec hp).symm ▸ h.completeBlock (.inr hp) hr (length_decryptedBytes s)

theorem resetHigh (h : Inv s) : Inv s.resetHigh := { h with in_reset := by simp }

/-- A build right after reset. -/
theorem resetOf (b : Build) : Inv (State.resetOf b) where
  mem_wf := rfl
  mem_in_windows := by simp [State.resetOf]
  S_length := List.length_replicate
  L_length := List.length_replicate
  S_fits := fun x hx => (List.eq_of_mem_replicate hx).symm ▸ fits_zero b
  L_fits := fun x hx => (List.eq_of_mem_replicate hx).symm ▸ fits_zero b
  regs_fit := by simpa [State.resetOf] using fits_zero b
  context_legal := nofun
  no_context := fun _ => ⟨rfl, rfl⟩
  sched_legal := nofun
  enc_legal := nofun
  dec_legal := nofun
  snapBlk_length := List.length_replicate
  busy_flags := nofun
  done_err := nofun
  err_code := fun _ => rfl
  code_reported := ⟨nofun, nofun⟩
  code_of_err := nofun
  done_context := nofun
  in_reset := nofun

/-- Reset during a run differs from `State.resetOf` in the draws only. -/
theorem resetLow (s : State) : Inv s.resetLow :=
  { resetOf s.build with
    S_length := length_drawS _ _ _ _
    L_length := length_drawL _ _
    S_fits := fun x hx => fits_of_mem_drawS hx
    L_fits := fun x hx => fits_of_mem_drawL hx
    regs_fit := by
      have hb := drawBlockRegs_fit s.build s.draws
      have hk := drawKeyRegs_fit s.build s.draws
      simp only [List.forall_mem_cons] at hb hk ⊢
      tauto
    sched_legal := nofun
    snapBlk_length := length_drawSnapBlk _ _
    in_reset := fun _ => ⟨rfl, rfl, statusWord_resetOf s.build, irqEnWord_resetOf s.build⟩ }

end Inv

end Sys2Proof.Machine

open Sys2Proof Sys2Proof.Machine

/-- Settles O52: the reset state has the invariant. -/
theorem invariantHoldsAtReset : Obligations.InvariantHoldsAtReset := Inv.resetOf

/-- Settles O53: whatever a step does, each of its updates keeps the invariant. -/
theorem stepKeepsInvariant : Obligations.StepKeepsInvariant := by
  intro s t h ht
  rcases step_next_cases ht with (rfl | rfl) | ⟨m, line, u, -, -, hr, hu, rfl⟩ | ⟨-, hr, -, rfl⟩ | ⟨-, rfl⟩ | ⟨-, rfl⟩
  · exact h
  · exact h.popTurn
  · exact (h.popTurn.busEffect hr hu).answer m line _
  · exact h.popTurn.complete hr
  · exact Inv.resetLow _
  · exact h.popTurn.resetHigh
end

section
/-! What the spec leaves unspecified is unobservable (93_implementation_defined.md V1 to V5): `SameReadable` is kept by
every update of the state, each of the two states taking the same one, and so by a transaction, a completion and a step. -/

namespace Sys2Proof.Machine

open Sys2Proof

/-! ### The cipher reads only the context's entries (42_encrypt.md R151; 43_decrypt.md R166) -/

section
variable {w : Nat} {S S' : List (Word w)}

theorem encRounds_congr (n : Nat) (h : ∀ i, i < 2 * n + 2 → entry S i = entry S' i) (x : Block w) :
    encRounds S n x = encRounds S' n x := by
  induction n with
  | zero => rfl
  | succ n ih =>
    simp only [encRounds, encRound, ih fun i hi => h i (by omega), h (2 * (n + 1)) (by omega),
      h (2 * (n + 1) + 1) (by omega)]

theorem decRounds_congr (n : Nat) (h : ∀ i, i < 2 * n + 2 → entry S i = entry S' i) (x : Block w) :
    decRounds S n x = decRounds S' n x := by
  induction n generalizing x with
  | zero => rfl
  | succ n ih =>
    simp only [decRounds, decRound, ih fun i hi => h i (by omega), h (2 * (n + 1)) (by omega),
      h (2 * (n + 1) + 1) (by omega)]

theorem encryptBlock_congr {R : Nat} (h : ∀ i, i < tableLen R → entry S i = entry S' i) (x : Block w) :
    encryptBlock S R x = encryptBlock S' R x := by
  simp only [tableLen] at h
  simp only [encryptBlock, encRounds_congr R fun i hi => h i (by omega), h 0 (by omega), h 1 (by omega),
    h (2 * R + 2) (by omega), h (2 * R + 3) (by omega)]

theorem decryptBlock_congr {R : Nat} (h : ∀ i, i < tableLen R → entry S i = entry S' i) (x : Block w) :
    decryptBlock S R x = decryptBlock S' R x := by
  simp only [tableLen] at h
  simp only [decryptBlock, decRounds_congr R fun i hi => h i (by omega), h 0 (by omega), h 1 (by omega),
    h (2 * R + 2) (by omega), h (2 * R + 3) (by omega)]

/-- Entries below `n` are entries of the first `n`. -/
theorem entry_take {n i : Nat} (hi : i < n) : entry (S.take n) i = entry S i := by
  simp [entry, hi]

theorem encryptBlock_take (S : List (Word w)) (R : Nat) (x : Block w) :
    encryptBlock (S.take (tableLen R)) R x = encryptBlock S R x :=
  encryptBlock_congr (fun _ => entry_take) x

theorem decryptBlock_take (S : List (Word w)) (R : Nat) (x : Block w) :
    decryptBlock (S.take (tableLen R)) R x = decryptBlock S R x :=
  decryptBlock_congr (fun _ => entry_take) x

end

/-! ### What a rule computes, from what it reads -/

/-- The bytes of a block in flight depend on S through the context's entries only. -/
theorem encryptedBytes_eq (s : State) : s.encryptedBytes =
    bytesOfBlock (encryptBlock ((s.S.take (tableLen s.ctxR.toNat)).map (load s.build.bits)) s.ctxR.toNat
      (blockOfBytes s.build.bits s.snapBlk)) := by
  rw [List.map_take, encryptBlock_take]
  rfl

theorem decryptedBytes_eq (s : State) : s.decryptedBytes =
    bytesOfBlock (decryptBlock ((s.S.take (tableLen s.ctxR.toNat)).map (load s.build.bits)) s.ctxR.toNat
      (blockOfBytes s.build.bits s.snapBlk)) := by
  rw [List.map_take, decryptBlock_take]
  rfl

/-- SCHEDULE's table depends on L through the key words captured at the start only. -/
theorem map_store_scheduledTable_eq (s : State) : s.scheduledTable.map store =
    (roundKeyTable s.build.W s.snapR.toNat (s.build.keyWords s.snapB.toNat)
      ((s.L.take (s.build.keyWords s.snapB.toNat)).map (load s.build.bits))).map store := by
  rw [List.map_take]
  rfl

/-- The key words depend on the build and KEYBUF only. -/
theorem map_store_packKey_congr {s t : State} (hb : s.build = t.build) (hm : s.mem = t.mem) (n : Nat) :
    (s.packKey n).map store = (t.packKey n).map store := by
  obtain ⟨⟩ := s
  obtain ⟨⟩ := t
  subst hb hm
  rfl

/-! ### Outcomes -/

theorem sameOutcome_mapNext {f g : State → State} (hfg : ∀ {s t}, SameReadable s t → SameReadable (f s) (g t))
    {o o' : Host.Outcome State Fault Refusal} (h : SameOutcome o o') : SameOutcome (mapNext f o) (mapNext g o') := by
  cases o with
  | next s =>
    cases o' with
    | next t => exact hfg h
    | _ => exact h
  | _ =>
    cases o' with
    | next t => exact h
    | _ => exact h

namespace SameReadable

variable {s t : State}

/-! ### What a transaction shows -/

theorem busy (h : SameReadable s t) : s.busy = t.busy := by simp only [State.busy, h.phase]

theorem statusWord (h : SameReadable s t) : s.statusWord = t.statusWord := by
  obtain ⟨hd, he, hc, hr, hl⟩ := h.status
  simp only [State.statusWord, h.busy, h.context.1, hd, he, hc, hr, hl]

theorem irqEnWord (h : SameReadable s t) : s.irqEnWord = t.irqEnWord := by
  obtain ⟨hd, he, hr⟩ := h.irqEn
  simp only [State.irqEnWord, hd, he, hr]

theorem ctxWord (h : SameReadable s t) : s.ctxWord = t.ctxWord := by
  obtain ⟨hk, hR, hB⟩ := h.context
  simp only [State.ctxWord, hk, hR, hB]

theorem configWord (h : SameReadable s t) : s.configWord = t.configWord := by
  simp only [State.configWord, h.config.1, h.config.2]

theorem irq (h : SameReadable s t) : s.irq = t.irq := by
  obtain ⟨hd, he, -, hr, -⟩ := h.status
  obtain ⟨hdi, hei, hri⟩ := h.irqEn
  simp only [State.irq, hd, he, hr, hdi, hei, hri]

theorem readData (h : SameReadable s t) (slot : Slot) : s.readData slot = t.readData slot := by
  cases slot with
  | param => simp only [State.readData, h.build]
  | config => simp only [State.readData, h.configWord]
  | status => simp only [State.readData, h.statusWord]
  | irqEn => simp only [State.readData, h.irqEnWord]
  | ctx => simp only [State.readData, h.ctxWord]
  | din k => simp only [State.readData, h.mem]
  | dout k => simp only [State.readData, h.mem]
  | _ => rfl

theorem respond (h : SameReadable s t) (x : Txn) : s.respond x = t.respond x := by
  cases x with
  | read a z => simp only [State.respond, h.build, h.readData]
  | write a st v => simp only [State.respond, h.build]

/-! ### Updates outside the core, register writes, memory -/

theorem popTurn (h : SameReadable s t) : SameReadable s.popTurn t.popTurn :=
  { h with surroundings := ⟨h.surroundings.1, h.surroundings.2.1, congrArg List.tail h.surroundings.2.2⟩ }

theorem answer (h : SameReadable s t) (m : Nat) (line : Line) (r : Response) :
    SameReadable (s.answer m line r) (t.answer m line r) :=
  { h with surroundings := ⟨h.surroundings.1, congrArg (List.modify · m _) h.surroundings.2.1, h.surroundings.2.2⟩ }

theorem writeConfig (h : SameReadable s t) (v : BusWord) : SameReadable (s.writeConfig v) (t.writeConfig v) :=
  { h with config := ⟨rfl, rfl⟩ }

theorem writeIrqEn (h : SameReadable s t) (v : BusWord) : SameReadable (s.writeIrqEn v) (t.writeIrqEn v) :=
  { h with irqEn := ⟨rfl, rfl, rfl⟩ }

theorem writeStatus (h : SameReadable s t) (v : BusWord) : SameReadable (s.writeStatus v) (t.writeStatus v) :=
  { h with
    status := by
      obtain ⟨hd, he, hc, hr, hl⟩ := h.status
      simp [hd, he, hc, hr, hl] }

theorem storeWord (h : SameReadable s t) (a : Nat) (v : BusWord) : SameReadable (s.storeWord a v) (t.storeWord a v) :=
  { h with mem := congrArg (Memory.writeBytes · a _) h.mem }

/-! ### The issue of a command -/

theorem reject (h : SameReadable s t) : SameReadable s.reject t.reject :=
  { h with status := by obtain ⟨hd, he, hc, -, hl⟩ := h.status; exact ⟨hd, he, hc, rfl, hl⟩ }

theorem issueEffects (h : SameReadable s t) (op : BitVec 4) : SameReadable (s.issueEffects op) (t.issueEffects op) :=
  { h with status := by obtain ⟨-, -, -, hr, -⟩ := h.status; exact ⟨rfl, rfl, rfl, hr, rfl⟩ }

theorem raiseError (h : SameReadable s t) (code : ErrorCode) : SameReadable (s.raiseError code) (t.raiseError code) :=
  { h with status := by obtain ⟨hd, -, -, hr, hl⟩ := h.status; exact ⟨hd, rfl, rfl, hr, hl⟩ }

/-- An issue, from its issue part. -/
theorem issue (h : SameReadable s t) (op : BitVec 4) {part : State → State}
    (hpart : ∀ {s t}, SameReadable s t → SameReadable (part s) (part t)) :
    SameReadable (s.issue op part) (t.issue op part) := by
  unfold State.issue
  rw [h.busy]
  cases t.busy with
  | true => exact h.reject
  | false => exact hpart (h.issueEffects op)

/-- A SCHEDULE's start captures the same key words; the rest of L is read by nothing. -/
theorem startSchedule (h : SameReadable s t) : SameReadable s.startSchedule t.startSchedule := by
  obtain ⟨hR, hB⟩ := h.config
  have hL := map_store_packKey_congr h.build h.mem s.keylen.toNat
  exact
  { h with
    phase := rfl
    context := ⟨rfl, rfl, rfl⟩
    table := by simp
    schedSnapshot := fun _ => ⟨hR, hB, by simp [← h.build, ← hB, hL]⟩
    blockSnapshot := by simp }

theorem startBlock (h : SameReadable s t) (hk : s.keyValid = true) {phase : Phase} (hp : phase ≠ .sched) :
    SameReadable (s.startBlock phase) (t.startBlock phase) :=
  { h with
    phase := rfl
    table := fun _ => h.table (.inl hk)
    schedSnapshot := fun h' => absurd h' hp
    blockSnapshot := fun _ => by simp [State.dinBlock, h.build, h.mem] }

theorem schedulePart (h : SameReadable s t) : SameReadable s.schedulePart t.schedulePart := by
  unfold State.schedulePart
  rw [h.build, h.config.1, h.config.2]
  split_ifs
  · exact h.raiseError _
  · exact h.raiseError _
  · exact h.raiseError _
  · exact h.startSchedule

theorem blockPart {phase : Phase} (hp : phase ≠ .sched) (h : SameReadable s t) :
    SameReadable (s.blockPart phase) (t.blockPart phase) := by
  unfold State.blockPart
  rw [← h.context.1]
  split_ifs with hk
  · exact h.startBlock hk hp
  · exact h.raiseError _

theorem exec (h : SameReadable s t) (i : Instr) : SameOutcome (exec i s) (exec i t) := by
  cases i with
  | schedule => exact h.issue _ schedulePart
  | encrypt => exact h.issue _ (blockPart (by decide))
  | decrypt => exact h.issue _ (blockPart (by decide))

theorem issueWord (h : SameReadable s t) (w : BusWord) : SameOutcome (issueWord w s) (issueWord w t) := by
  unfold Machine.issueWord
  cases decode w with
  | ok i => exact h.exec i
  | error e => exact h.issue _ fun h => h.raiseError _

theorem writeTo (h : SameReadable s t) (slot : Slot) (v : BusWord) : SameOutcome (writeTo slot v s) (writeTo slot v t) := by
  cases slot with
  | config => exact h.writeConfig v
  | cmd => exact h.issueWord v
  | status => exact h.writeStatus v
  | irqEn => exact h.writeIrqEn v
  | din k => exact h.storeWord _ v
  | key k => exact h.storeWord _ v
  | _ => exact h

theorem busEffect (h : SameReadable s t) (x : Txn) : SameOutcome (busEffect x s) (busEffect x t) := by
  cases x with
  | read a z => exact h
  | write a st v =>
    simp only [Machine.busEffect, h.build]
    exact h.writeTo _ v

/-! ### Completion and reset -/

theorem completeSchedule (h : SameReadable s t) (hp : s.phase = .sched) :
    SameReadable s.completeSchedule t.completeSchedule := by
  obtain ⟨hR, hB, hL⟩ := h.schedSnapshot hp
  have hT : s.scheduledTable.map store = t.scheduledTable.map store := by
    rw [map_store_scheduledTable_eq, map_store_scheduledTable_eq, hL, hR, hB, h.build]
  obtain ⟨-, he, hc, hr, hl⟩ := h.status
  exact
  { h with
    phase := rfl
    context := ⟨rfl, hR, hB⟩
    status := ⟨rfl, he, hc, hr, hl⟩
    table := fun _ => by simp [hT, hR]
    schedSnapshot := by simp
    blockSnapshot := by simp }

theorem completeBlock (h : SameReadable s t) (result : List Byte) :
    SameReadable (s.completeBlock result) (t.completeBlock result) := by
  obtain ⟨-, he, hc, hr, hl⟩ := h.status
  exact
  { h with
    phase := rfl
    status := ⟨rfl, he, hc, hr, hl⟩
    mem := congrArg (Memory.writeBytes · _ result) h.mem
    table := fun hk => h.table (.inl (by simpa using hk))
    schedSnapshot := by simp
    blockSnapshot := by simp }

theorem encryptedBytes (h : SameReadable s t) (hp : s.phase = .enc) : s.encryptedBytes = t.encryptedBytes := by
  rw [encryptedBytes_eq, encryptedBytes_eq, h.table (.inr (.inl hp)), h.blockSnapshot (.inl hp), h.context.2.1, h.build]

theorem decryptedBytes (h : SameReadable s t) (hp : s.phase = .dec) : s.decryptedBytes = t.decryptedBytes := by
  rw [decryptedBytes_eq, decryptedBytes_eq, h.table (.inr (.inr hp)), h.blockSnapshot (.inr hp), h.context.2.1, h.build]

theorem complete (h : SameReadable s t) : SameReadable s.complete t.complete := by
  have hp := h.phase
  cases hs : s.phase with
  | idle => rwa [complete_idle hs, complete_idle (hp ▸ hs)]
  | sched => rw [complete_sched hs, complete_sched (hp ▸ hs)]; exact h.completeSchedule hs
  | enc => rw [complete_enc hs, complete_enc (hp ▸ hs), h.encryptedBytes hs]; exact h.completeBlock _
  | dec => rw [complete_dec hs, complete_dec (hp ▸ hs), h.decryptedBytes hs]; exact h.completeBlock _

theorem resetLow (h : SameReadable s t) : SameReadable s.resetLow t.resetLow where
  build := h.build
  phase := rfl
  context := ⟨rfl, rfl, rfl⟩
  config := ⟨congrArg resetRounds h.build, rfl⟩
  status := ⟨rfl, rfl, rfl, rfl, rfl⟩
  irqEn := ⟨rfl, rfl, rfl⟩
  mem := rfl
  surroundings := ⟨rfl, h.surroundings.2⟩
  table := by simp
  schedSnapshot := by simp
  blockSnapshot := by simp

theorem resetHigh (h : SameReadable s t) : SameReadable s.resetHigh t.resetHigh :=
  { h with surroundings := ⟨rfl, h.surroundings.2⟩ }

/-! ### Turns and the step -/

theorem nextLine (h : SameReadable s t) (m : Nat) : s.nextLine m = t.nextLine m := by
  simp only [State.nextLine, h.surroundings.2.1]

theorem nextTurn (h : SameReadable s t) : s.nextTurn = t.nextTurn := by
  obtain ⟨hr, hm, ht⟩ := h.surroundings
  simp only [State.nextTurn, hr, hm, ht, h.busy]

theorem hostTurn (h : SameReadable s t) (m : Nat) : SameOutcome (hostTurn m s) (hostTurn m t) := by
  unfold Machine.hostTurn
  rw [h.nextLine m, h.surroundings.1]
  cases t.nextLine m with
  | none => exact h
  | some line =>
    cases t.rstN with
    | false => rfl
    | true =>
      simp only [if_true, h.respond]
      exact sameOutcome_mapNext (fun h => h.answer m line _) (h.busEffect _)

theorem sequencerTurn (h : SameReadable s t) : SameReadable (sequencerTurn s) (sequencerTurn t) := by
  unfold Machine.sequencerTurn
  rw [h.surroundings.1]
  split_ifs
  · exact h.complete
  · exact h

theorem takeTurn (h : SameReadable s t) (turn : Turn) : SameOutcome (takeTurn turn s) (takeTurn turn t) := by
  cases turn with
  | host m => exact h.hostTurn m
  | sequencer => exact h.sequencerTurn
  | resetLow => exact h.resetLow
  | resetHigh => exact h.resetHigh

theorem step (h : SameReadable s t) : SameOutcome (step s) (step t) := by
  unfold Machine.step stepTurn
  rw [h.nextTurn]
  cases t.nextTurn with
  | none => exact h
  | some turn => exact h.popTurn.takeTurn turn

end SameReadable

end Sys2Proof.Machine

open Sys2Proof Sys2Proof.Machine

/-- Settles O54: the relation of the two states is kept by a step, and what they answer is read off it. -/
theorem unspecifiedStorageIsUnobservable : Obligations.UnspecifiedStorageIsUnobservable := by
  intro s t h
  exact ⟨h.step, h.respond, h.irq⟩
end

section
/-! The registers as the host sees them (10_state.md R31 to R38): the transaction at each offset, and each field of the words
read. -/

namespace Sys2Proof.Machine

open Sys2Proof

/-! ### The transaction at an aligned offset -/

/-- A full-width read is answered from the slot at its offset. -/
theorem respond_memRead {s : State} {a : Offset} {slot : Slot} {v : BusWord} (ha : aligned a = true)
    (hs : slotAt s.build a.toNat = slot) (hv : s.readData slot = some v) : s.respond (.memRead a) = .okRead v := by
  simp [Txn.memRead, State.respond, readSlot, ha, hs, hv]

/-- A full-width write to a slot that may not be written is a bus error. -/
theorem respond_memWrite_of_not_writable {s : State} {a : Offset} {slot : Slot} (ha : aligned a = true)
    (hs : slotAt s.build a.toNat = slot) (hw : slot.writable = false) (v : BusWord) :
    s.respond (.memWrite a v) = .err := by
  simp [Txn.memWrite, State.respond, writeSlot, ha, hs, hw]

/-- A full-width write acts on the slot at its offset. -/
theorem busEffect_memWrite {s : State} {a : Offset} {slot : Slot} (ha : aligned a = true)
    (hs : slotAt s.build a.toNat = slot) (v : BusWord) : busEffect (.memWrite a v) s = writeTo slot v s := by
  simp [Txn.memWrite, busEffect, writeSlot, ha, hs]

variable (s : State)

theorem respond_read_id : s.respond (.memRead 0x000#9) = .okRead idWord := respond_memRead rfl rfl rfl
theorem respond_read_param : s.respond (.memRead 0x004#9) = .okRead (paramWord s.build) := respond_memRead rfl rfl rfl
theorem respond_read_config : s.respond (.memRead 0x008#9) = .okRead s.configWord := respond_memRead rfl rfl rfl
theorem respond_read_status : s.respond (.memRead 0x010#9) = .okRead s.statusWord := respond_memRead rfl rfl rfl
theorem respond_read_irqEn : s.respond (.memRead 0x014#9) = .okRead s.irqEnWord := respond_memRead rfl rfl rfl
theorem respond_read_ctx : s.respond (.memRead 0x018#9) = .okRead s.ctxWord := respond_memRead rfl rfl rfl

theorem busEffect_write_config (v : BusWord) : busEffect (.memWrite 0x008#9 v) s = .next (s.writeConfig v) :=
  busEffect_memWrite rfl rfl v
theorem busEffect_write_status (v : BusWord) : busEffect (.memWrite 0x010#9 v) s = .next (s.writeStatus v) :=
  busEffect_memWrite rfl rfl v
theorem busEffect_write_irqEn (v : BusWord) : busEffect (.memWrite 0x014#9 v) s = .next (s.writeIrqEn v) :=
  busEffect_memWrite rfl rfl v

/-! ### The fields of the words read -/

/-- A field of 16, 8 and 8 bits, as CONFIG, PARAM and CTX are laid out. -/
theorem extractLsb'_0_8 (x : BitVec 16) (y z : BitVec 8) : (x ++ y ++ z).extractLsb' 0 8 = z :=
  BitVec.extractLsb'_append_eq_right

theorem extractLsb'_8_8 (x : BitVec 16) (y z : BitVec 8) : (x ++ y ++ z).extractLsb' 8 8 = y := by
  rw [BitVec.extractLsb'_append_eq_of_le (by decide)]
  exact BitVec.extractLsb'_append_eq_right

theorem extractLsb'_16_16 (x : BitVec 16) (y z : BitVec 8) : (x ++ y ++ z).extractLsb' 16 16 = x := by
  rw [BitVec.extractLsb'_append_eq_of_le (by decide), BitVec.extractLsb'_append_eq_of_le (by decide)]
  exact BitVec.extractLsb'_eq_self

/-- PARAM's fields hold W and B_MAX whole: both are small enough. -/
theorem paramWord_fields (b : Build) : ((paramWord b).extractLsb' 0 8).toNat = b.bits ∧
    (paramWord b).extractLsb' 8 8 = b.rMax ∧ ((paramWord b).extractLsb' 16 16).toNat = b.bMax := by
  have hW := bits_le b
  obtain ⟨hB, -, -⟩ := bMax_bounds b
  refine ⟨?_, extractLsb'_8_8 _ _ _, ?_⟩
  · rw [paramWord, extractLsb'_0_8, BitVec.toNat_ofNat]
    omega
  · rw [paramWord, extractLsb'_16_16, BitVec.toNat_ofNat]
    omega

theorem statusWord_flags : s.statusWord.getLsbD 0 = s.busy ∧ s.statusWord.getLsbD 1 = s.keyValid ∧
    s.statusWord.getLsbD 2 = s.done ∧ s.statusWord.getLsbD 3 = s.err ∧ s.statusWord.getLsbD 8 = s.rejected := by
  refine ⟨?_, ?_, ?_, ?_, ?_⟩ <;>
  · simp only [State.statusWord, BitVec.getLsbD_append]
    simp [flagBit]

/-- ERRCODE, the reserved bits and LAST_OP of STATUS. -/
theorem statusWord_fields : s.statusWord.extractLsb' 4 4 = s.errcode.bits ∧ s.statusWord.extractLsb' 9 3 = 0#3 ∧
    s.statusWord.extractLsb' 12 4 = s.lastOp ∧ s.statusWord.extractLsb' 16 16 = 0#16 := by
  refine ⟨?_, ?_, ?_, ?_⟩ <;> simp (disch := decide) only [State.statusWord, BitVec.extractLsb'_append_eq_of_le]
  · exact BitVec.extractLsb'_append_eq_right
  · exact BitVec.extractLsb'_append_eq_right
  · exact BitVec.extractLsb'_append_eq_right
  · exact BitVec.extractLsb'_zero

theorem irqEnWord_fields : s.irqEnWord.getLsbD 0 = s.doneIe ∧ s.irqEnWord.getLsbD 1 = s.errIe ∧
    s.irqEnWord.getLsbD 2 = s.rejIe ∧ s.irqEnWord.extractLsb' 3 29 = 0#29 := by
  refine ⟨?_, ?_, ?_, ?_⟩
  case refine_4 =>
    simp (disch := decide) only [State.irqEnWord, BitVec.extractLsb'_append_eq_of_le]
    exact BitVec.extractLsb'_zero
  all_goals
    simp only [State.irqEnWord, BitVec.getLsbD_append]
    simp [flagBit]

theorem ctxWord_of_no_context {s : State} (hk : s.keyValid = false) : s.ctxWord = 0#32 := by
  simp [State.ctxWord, hk]

theorem ctxWord_of_context {s : State} (hk : s.keyValid = true) : s.ctxWord = s.ctxB ++ 0#8 ++ s.ctxR := by
  simp [State.ctxWord, hk]

/-- Write-1-to-clear, field by field. -/
theorem writeStatus_eq (v : BusWord) : s.writeStatus v =
    { s with
      done := if v.getLsbD 2 then false else s.done
      err := if v.getLsbD 3 then false else s.err
      errcode := if v.getLsbD 3 then .none else s.errcode
      rejected := if v.getLsbD 8 then false else s.rejected } := by
  have clear : ∀ a b : Bool, (a && !b) = if b then false else a := by decide
  simp only [State.writeStatus, clear]

theorem resetRounds_toNat (b : Build) : (resetRounds b).toNat = min 20 b.rMax.toNat := by
  unfold resetRounds
  split_ifs with h
  · exact (Nat.min_eq_right h.le).symm
  · exact (Nat.min_eq_left (Nat.le_of_not_lt h)).symm

/-- No step changes the build (10_state.md R35). -/
theorem step_build {s t : State} (h : step s = .next t) : t.build = s.build := by
  rcases step_next_cases h with (rfl | rfl) | ⟨m, line, u, -, -, -, hu, rfl⟩ | ⟨-, -, -, rfl⟩ | ⟨-, rfl⟩ | ⟨-, rfl⟩
  case inr.inl => exact (busEffect_surroundings hu).1
  case inr.inr.inl => exact complete_build _
  all_goals rfl

end Sys2Proof.Machine

open Sys2Proof Sys2Proof.Machine

/-- Settles O36: PARAM's fields hold the build's parameters, and no step changes the build. -/
theorem identityRegisters : Obligations.IdentityRegisters := by
  refine ⟨fun s => ⟨respond_read_id s, ⟨_, respond_read_param s, paramWord_fields s.build⟩, fun v => ?_⟩,
    respond_read_param _, fun _ _ => step_build⟩
  exact ⟨respond_memWrite_of_not_writable rfl rfl rfl v, respond_memWrite_of_not_writable rfl rfl rfl v,
    busEffect_memWrite rfl rfl v, busEffect_memWrite rfl rfl v⟩

/-- Settles O38: each field of STATUS at its bits, and the write as write-1-to-clear. -/
theorem statusRegister : Obligations.StatusRegister := by
  refine ⟨⟨rfl, rfl, rfl, rfl, rfl, rfl, rfl, rfl⟩, fun s => ⟨⟨_, respond_read_status s, ?_⟩, fun v => ?_⟩⟩
  · obtain ⟨hbusy, hkey, hdone, herr, hrej⟩ := statusWord_flags s
    obtain ⟨hcode, hres, hop, htop⟩ := statusWord_fields s
    exact ⟨hbusy, hkey, hdone, herr, hcode, hrej, hres, hop, htop⟩
  · rw [busEffect_write_status, writeStatus_eq]

/-- Settles O37: CONFIG's two fields, as written and as read, and the reset value of ROUNDS. -/
theorem configRegister : Obligations.ConfigRegister := by
  refine ⟨fun s v => ⟨busEffect_write_config s v, _, respond_read_config s, ?_⟩, fun b => ⟨resetRounds_toNat b, rfl⟩⟩
  exact ⟨extractLsb'_0_8 _ _ _, extractLsb'_8_8 _ _ _, extractLsb'_16_16 _ _ _⟩

/-- Settles O39: IRQ_EN's three bits, and CTX with and without a context. -/
theorem irqEnableAndContextRegisters : Obligations.IrqEnableAndContextRegisters := by
  refine ⟨fun s v => ⟨⟨_, respond_read_irqEn s, irqEnWord_fields s⟩, busEffect_write_irqEn s v,
    ⟨_, respond_read_ctx s, ctxWord_of_no_context, fun hk => ?_⟩,
    respond_memWrite_of_not_writable rfl rfl rfl v, busEffect_memWrite rfl rfl v⟩,
    fun b => ⟨?_, ?_⟩⟩
  · rw [ctxWord_of_context hk]
    exact ⟨extractLsb'_0_8 _ _ _, extractLsb'_8_8 _ _ _, extractLsb'_16_16 _ _ _⟩
  · rw [respond_read_irqEn, irqEnWord_resetOf]
  · rw [respond_read_ctx, ctxWord_of_no_context rfl]
end

section
/-! Which step changes DOUTBUF, S, the context and the phase (10_state.md R24, R27, R28, R40). A transaction changes none of
them, but that the start of a command enters the command's phase and SCHEDULE's start drops the context. -/

namespace Sys2Proof.Machine

open Sys2Proof

theorem rsvField_append_opField (w : BusWord) : rsvField w ++ opField w = w :=
  BitVec.extractLsb'_append_extractLsb'_eq_extractLsb' (by decide) |>.trans BitVec.extractLsb'_eq_self

/-- Only a command's own word decodes to it. -/
theorem eq_encode_of_decode {w : BusWord} {i : Instr} (h : decode w = .ok i) : w = encode i := by
  have hr : rsvField w = 0#28 := by
    by_contra hr
    rw [decode, if_neg hr] at h
    cases h
  rw [← rsvField_append_opField w, hr, opField_of_decode h]
  rfl

/-- The state after the start of a command (44_command_sequencer.md R184). -/
def State.started (s : State) : Instr → State
  | .schedule => (s.issueEffects 0x1#4).startSchedule
  | .encrypt => (s.issueEffects 0x2#4).startBlock .enc
  | .decrypt => (s.issueEffects 0x3#4).startBlock .dec

/-- The phase, the context and S are as they were. -/
structure KeepsContext (s u : State) : Prop where
  phase : u.phase = s.phase
  keyValid : u.keyValid = s.keyValid
  ctxR : u.ctxR = s.ctxR
  ctxB : u.ctxB = s.ctxB
  S : u.S = s.S

/-- An issued command starts, or leaves the phase, the context and S alone. -/
theorem exec_keeps_or_starts {i : Instr} {s u : State} (h : exec i s = .next u) :
    KeepsContext s u ∨ s.phase = .idle ∧ u = s.started i := by
  rcases exec_cases i s with ⟨e, -⟩ | ⟨code, e, -, -⟩ | ⟨rfl, e, hb, -⟩ | ⟨rfl, e, hb, -⟩ | ⟨rfl, e, hb, -⟩ <;>
    obtain rfl := Host.Outcome.next.inj (e.symm.trans h)
  · exact .inl ⟨rfl, rfl, rfl, rfl, rfl⟩
  · exact .inl ⟨rfl, rfl, rfl, rfl, rfl⟩
  · exact .inr ⟨(busy_eq_false s).1 hb, rfl⟩
  · exact .inr ⟨(busy_eq_false s).1 hb, rfl⟩
  · exact .inr ⟨(busy_eq_false s).1 hb, rfl⟩

theorem issueIllegal_keeps (w : BusWord) (s : State) : KeepsContext s (issueIllegal w s) := by
  unfold issueIllegal State.issue
  split_ifs
  · exact ⟨rfl, rfl, rfl, rfl, rfl⟩
  · exact ⟨rfl, rfl, rfl, rfl, rfl⟩

theorem issueWord_keeps_or_starts {w : BusWord} {s u : State} (h : issueWord w s = .next u) :
    KeepsContext s u ∨ ∃ i, w = encode i ∧ s.phase = .idle ∧ u = s.started i := by
  unfold issueWord at h
  cases hd : decode w with
  | error e =>
    rw [hd] at h
    obtain rfl := Host.Outcome.next.inj h
    exact .inl (issueIllegal_keeps w s)
  | ok i =>
    rw [hd] at h
    exact (exec_keeps_or_starts h).imp_right fun hs => ⟨i, eq_encode_of_decode hd, hs⟩

/-- A transaction starts a command by writing its word to CMD, or leaves the phase, the context and S alone. -/
theorem busEffect_keeps_or_starts {x : Txn} {s u : State} (h : busEffect x s = .next u) :
    KeepsContext s u ∨ ∃ i, x = .memWrite 0x00C#9 (encode i) ∧ s.phase = .idle ∧ u = s.started i := by
  rcases busEffect_cases h with rfl | ⟨a, v, rfl, rfl | ⟨-, rfl⟩ | rfl | ⟨rfl, hi⟩ | ⟨k, -, rfl⟩ | ⟨k, -, rfl⟩⟩
  case inr.inr.inr.inr.inl =>
    exact (issueWord_keeps_or_starts hi).imp_right fun ⟨i, hw, hs⟩ => ⟨i, by rw [hw], hs⟩
  all_goals exact .inl ⟨rfl, rfl, rfl, rfl, rfl⟩

theorem issueWord_mem {w : BusWord} {s u : State} (h : issueWord w s = .next u) : u.mem = s.mem := by
  rcases issueWord_cases w s with ⟨e, -⟩ | ⟨code, e, -⟩ | ⟨e, -⟩ | ⟨e, -⟩ | ⟨e, -⟩ <;>
  · obtain rfl := Host.Outcome.next.inj (e.symm.trans h)
    rfl

/-- A bus word stored below or above the DOUT window leaves DOUTBUF alone. -/
theorem doutByte_storeWord (s : State) {a k : Nat} (v : BusWord) (h : doutBase + k < a ∨ a + 4 ≤ doutBase + k) :
    (s.storeWord a v).doutByte k = s.doutByte k :=
  Memory.read_writeBytes_out _ _ _ h

/-- No transaction changes DOUTBUF: DIN ends below it and KEY begins above it. -/
theorem busEffect_doutByte {x : Txn} {s u : State} (h : busEffect x s = .next u) {k : Nat} (hk : k < s.build.blkBytes) :
    u.doutByte k = s.doutByte k := by
  have hblk := (blk_bounds s.build).1
  have hdin : dinBase = 64 := rfl
  have hdout : doutBase = 96 := rfl
  have hkey : keyBase = 256 := rfl
  rcases busEffect_cases h with rfl | ⟨a, v, rfl, rfl | ⟨-, rfl⟩ | rfl | ⟨-, hi⟩ | ⟨j, hj, rfl⟩ | ⟨j, -, rfl⟩⟩
  · rfl
  · rfl
  · rfl
  · rfl
  · simp only [State.doutByte, issueWord_mem hi]
  · exact doutByte_storeWord s v (by omega)
  · exact doutByte_storeWord s v (by omega)

/-- A completion that changes DOUTBUF is a block's. -/
theorem phase_of_complete_doutByte {s : State} {k : Nat} (h : s.complete.doutByte k ≠ s.doutByte k) :
    s.phase = .enc ∨ s.phase = .dec := by
  cases hp : s.phase with
  | idle => exact absurd (by rw [complete_idle hp]) h
  | sched => exact absurd (by rw [complete_sched hp]; rfl) h
  | enc => exact .inl rfl
  | dec => exact .inr rfl

/-- A completion of anything but SCHEDULE leaves S and the context alone. -/
theorem complete_S_context {s : State} (h : s.phase ≠ .sched) : s.complete.S = s.S ∧
    s.complete.keyValid = s.keyValid ∧ s.complete.ctxR = s.ctxR ∧ s.complete.ctxB = s.ctxB := by
  cases hp : s.phase with
  | idle => simp [complete_idle hp]
  | sched => exact absurd hp h
  | enc => simp [complete_enc hp]
  | dec => simp [complete_dec hp]

end Sys2Proof.Machine

open Sys2Proof Sys2Proof.Machine

/-- Settles O43: of a step's updates, only a block's completion and reset write the DOUT window. -/
theorem doutChangesOnlyAtCompletion : Obligations.DoutChangesOnlyAtCompletion := by
  intro s t k h hk hne
  rcases step_next_cases h with (rfl | rfl) | ⟨m, line, u, -, -, -, hu, rfl⟩ | ⟨ht, hr, hp, rfl⟩ | ⟨ht, -⟩ | ⟨-, rfl⟩
  · exact absurd rfl hne
  · exact absurd rfl hne
  · exact absurd (busEffect_doutByte hu hk) hne
  · exact .inl ⟨ht, hr, phase_of_complete_doutByte (s := s.popTurn) hne, complete_done hp⟩
  · exact .inr ht
  · exact absurd rfl hne

/-- Settles O44: a transaction keeps S, and the context too unless it starts a SCHEDULE; a completion that changes either is
SCHEDULE's. -/
theorem roundKeysWrittenOnlyBySchedule : Obligations.RoundKeysWrittenOnlyBySchedule := by
  intro s t h
  rcases step_next_cases h with (rfl | rfl) | ⟨m, line, u, -, -, -, hu, rfl⟩ | ⟨ht, hr, hp, rfl⟩ | ⟨ht, -⟩ | ⟨-, rfl⟩
  · simp
  · simp
  · rcases busEffect_keeps_or_starts hu with hkeep | ⟨i, -, hidle, rfl⟩
    · simp [hkeep.S, hkeep.keyValid, hkeep.ctxR, hkeep.ctxB]
    · cases i with
      | schedule => exact ⟨fun hS => absurd rfl hS, fun _ => .inr (.inl ⟨hidle, rfl, rfl⟩)⟩
      | encrypt => simp [State.started]
      | decrypt => simp [State.started]
  · by_cases hs : s.phase = .sched
    · have hk : s.popTurn.complete.keyValid = true := by rw [complete_sched (s := s.popTurn) hs]; rfl
      exact ⟨fun _ => .inl ⟨ht, hr, hs, hk⟩, fun _ => .inl ⟨ht, hr, hs, hk⟩⟩
    · obtain ⟨hS, hk, hR, hB⟩ := complete_S_context (s := s.popTurn) hs
      simp [hS, hk, hR, hB]
  · exact ⟨fun _ => .inr ht, fun _ => .inr (.inr ht)⟩
  · simp

/-- Settles O45: the phase changes by a command's start, by a completion and by reset. -/
theorem phaseChanges : Obligations.PhaseChanges := by
  refine ⟨busy_eq_true, fun _ => rfl, fun s t h => ?_⟩
  by_cases hsame : t.phase = s.phase
  · exact ⟨fun hs hne => absurd (hsame.trans hs) hne, fun hne ht => absurd (hsame.symm.trans ht) hne, fun _ _ => hsame⟩
  rcases step_next_cases h with (rfl | rfl) | ⟨m, line, u, ht, hl, -, hu, rfl⟩ | ⟨ht, -, hp, rfl⟩ | ⟨ht, rfl⟩ | ⟨-, rfl⟩
  · exact absurd rfl hsame
  · exact absurd rfl hsame
  · rcases busEffect_keeps_or_starts hu with hkeep | ⟨i, hx, hidle, rfl⟩
    · exact absurd hkeep.phase hsame
    · refine ⟨fun _ _ => ⟨m, line, i, ht, hl, hx, ?_⟩, fun hne => absurd hidle hne, fun hne => absurd hidle hne⟩
      cases i <;> simp [State.started]
  · have hidle : s.popTurn.complete.phase = .idle := (busy_eq_false _).1 (complete_busy _)
    exact ⟨fun hs => absurd hs hp, fun _ _ => .inl ⟨ht, complete_done hp⟩, fun _ hne => absurd hidle hne⟩
  · exact ⟨fun _ hne => absurd rfl hne, fun _ _ => .inr ht, fun _ hne => absurd rfl hne⟩
  · exact absurd rfl hsame
end

section
/-! Byte order (20_memory.md R66 to R70): the bytes of Words and of bus words, and where the Words of a window stand in its
bus words. Two values are compared byte by byte (`ext_bytes`). -/

namespace Sys2Proof.Machine

open Sys2Proof

/-! ### Words from bytes and bytes from Words (20_memory.md R67, R68) -/

theorem bytesOfWord_getD {w : Nat} (u : Nat) (x : Word w) {k : Nat} (hk : k < u) :
    (bytesOfWord u x).getD k 0#8 = x.extractLsb' (8 * k) 8 := by
  simp [bytesOfWord, byteOf, List.getD, hk]

/-- The four Words of a block are written in the order A, B, C, D. -/
theorem bytesOfBlock_getD {w : Nat} (x : Block w) {k : Nat} (hk : k < w / 8) :
    (bytesOfBlock x).getD k 0#8 = x.A.extractLsb' (8 * k) 8 ∧
    (bytesOfBlock x).getD (w / 8 + k) 0#8 = x.B.extractLsb' (8 * k) 8 ∧
    (bytesOfBlock x).getD (2 * (w / 8) + k) 0#8 = x.C.extractLsb' (8 * k) 8 ∧
    (bytesOfBlock x).getD (3 * (w / 8) + k) 0#8 = x.D.extractLsb' (8 * k) 8 := by
  simp only [bytesOfBlock, ← bytesOfWord_getD (w / 8) _ hk, List.append_assoc]
  refine ⟨?_, ?_, ?_, ?_⟩
  · rw [List.getD_append _ _ _ _ (by simpa)]
  · rw [List.getD_append_right _ _ _ _ (by simp), List.getD_append _ _ _ _ (by simpa)]
    simp
  · rw [List.getD_append_right _ _ _ _ (by simp; omega), List.getD_append_right _ _ _ _ (by simp; omega),
      List.getD_append _ _ _ _ (by simp; omega)]
    congr 1
    simp
    omega
  · rw [List.getD_append_right _ _ _ _ (by simp; omega), List.getD_append_right _ _ _ _ (by simp; omega),
      List.getD_append_right _ _ _ _ (by simp; omega)]
    congr 1
    simp
    omega

/-- A Word of a byte array is the Word with those bytes. -/
theorem wordLE_eq_of_bytes {w : Nat} (hw : 8 ∣ w) {X : List Byte} {m : Nat} {x : Word w}
    (h : ∀ k, k < w / 8 → X.getD (m * (w / 8) + k) 0#8 = x.extractLsb' (8 * k) 8) : wordLE w X m = x :=
  ext_bytes fun k hk => by rw [wordLE_byte w X m k (by omega), h k (by omega)]

theorem blockOfBytes_bytesOfBlock {w : Nat} (hw : 8 ∣ w) (x : Block w) : blockOfBytes w (bytesOfBlock x) = x := by
  unfold blockOfBytes
  congr <;> refine wordLE_eq_of_bytes hw fun k hk => ?_ <;> obtain ⟨hA, hB, hC, hD⟩ := bytesOfBlock_getD x hk
  · rwa [Nat.zero_mul, Nat.zero_add]
  · rwa [Nat.one_mul]
  · exact hC
  · exact hD

/-- The bytes of Word `m` of a byte array that has Word `m`. -/
theorem bytesOfWord_wordLE {w : Nat} {X : List Byte} {m : Nat} (hX : m * (w / 8) + w / 8 ≤ X.length) :
    bytesOfWord (w / 8) (wordLE w X m) = (X.drop (m * (w / 8))).take (w / 8) := by
  apply List.ext_getElem (by simp; omega)
  intro k hk _
  rw [length_bytesOfWord] at hk
  rw [List.getElem_take, List.getElem_drop, ← List.getD_eq_getElem _ 0#8, ← List.getD_eq_getElem _ 0#8,
    bytesOfWord_getD _ _ hk, wordLE_byte w X m k (by omega)]

theorem bytesOfBlock_blockOfBytes {w : Nat} {X : List Byte} (hX : X.length = 4 * (w / 8)) :
    bytesOfBlock (blockOfBytes w X) = X := by
  unfold bytesOfBlock blockOfBytes
  rw [bytesOfWord_wordLE (by omega), bytesOfWord_wordLE (by omega), bytesOfWord_wordLE (by omega),
    bytesOfWord_wordLE (by omega)]
  calc _ = X.take (w / 8 + w / 8 + w / 8 + w / 8) := by simp only [List.take_add, Nat.zero_mul, Nat.one_mul,
          List.drop_zero, show 2 * (w / 8) = w / 8 + w / 8 by omega, show 3 * (w / 8) = w / 8 + w / 8 + w / 8 by omega]
    _ = X := List.take_of_length_le (by omega)

theorem eight_dvd_bits (W : Width) : 8 ∣ W.bits := by cases W <;> decide

/-! ### Words of a window in its bus words (20_memory.md R66, R70) -/

/-- Byte `k` of a bus word of a window (20_memory.md R66). -/
theorem busWord_byte (m : Memory) (a : Nat) {k : Nat} (hk : k < 4) :
    (Memory.busWord m a).extractLsb' (8 * k) 8 = Memory.read m (a + k) := by
  have h : k = 0 ∨ k = 1 ∨ k = 2 ∨ k = 3 := by omega
  unfold Memory.busWord
  rcases h with rfl | rfl | rfl | rfl <;>
    simp (disch := decide) only [BitVec.extractLsb'_append_eq_of_le, BitVec.extractLsb'_append_eq_of_add_le]
  all_goals exact BitVec.extractLsb'_eq_self

/-- Byte `k` of a field that begins at byte `p`. -/
theorem extractLsb'_byte {w : Nat} (x : BitVec w) (p : Nat) {c k : Nat} (hk : k < c) :
    (x.extractLsb' (8 * p) (8 * c)).extractLsb' (8 * k) 8 = x.extractLsb' (8 * (p + k)) 8 := by
  apply BitVec.eq_of_getLsbD_eq
  intro i hi
  simp only [BitVec.getLsbD_extractLsb', hi, show 8 * k + i < 8 * c by omega, Nat.mul_add, Nat.add_assoc,
    decide_true, Bool.true_and]

/-- The `c` bytes from byte `p` of Word `m` on are those from byte `q` of the bus word on that holds them. -/
theorem wordLE_eq_busWord {mem : Memory} {base : Nat} {X : List Byte}
    (hX : ∀ i, i < X.length → X.getD i 0#8 = Memory.read mem (base + i)) (w c : Nat) {m p a q : Nat}
    (hp : p + c ≤ w / 8) (hq : q + c ≤ 4) (ha : m * (w / 8) + p = a + q) (hl : a + 4 ≤ X.length) :
    (wordLE w X m).extractLsb' (8 * p) (8 * c) = (Memory.busWord mem (base + a)).extractLsb' (8 * q) (8 * c) := by
  refine ext_bytes fun k hk => ?_
  rw [extractLsb'_byte _ _ (by omega), extractLsb'_byte _ _ (by omega), wordLE_byte w X m _ (by omega),
    busWord_byte _ _ (by omega), hX _ (by omega)]
  congr 1
  omega

/-- The block in DIN, the result in DOUT and the key bytes in KEY are their windows' bytes, whole bus words and whole Words. -/
theorem window_bytes {s : State} {base : Nat} {X : List Byte}
    (h : (base = dinBase ∧ X = s.dinBlock) ∨ (base = doutBase ∧ X = s.doutBlock) ∨
      (base = keyBase ∧ X = (List.range s.build.bMax).map s.keyByte)) :
    (∀ i, i < X.length → X.getD i 0#8 = Memory.read s.mem (base + i)) ∧ 4 ∣ X.length ∧ s.build.u ∣ X.length := by
  obtain ⟨-, -, hblk⟩ := blk_bounds s.build
  have hu : s.build.u ∣ 8 := by rcases bits_cases s.build with h | h | h | h <;> simp [Build.u, h]
  rcases h with ⟨rfl, rfl⟩ | ⟨rfl, rfl⟩ | ⟨rfl, rfl⟩
  · rw [dinBlock_eq]
    exact ⟨fun i hi => by simp_all [State.dinByte], by simp; omega, by simp [Build.blkBytes]⟩
  · rw [doutBlock_eq]
    exact ⟨fun i hi => by simp_all [State.doutByte], by simp; omega, by simp [Build.blkBytes]⟩
  · refine ⟨fun i hi => by simp_all [State.keyByte], ?_, ?_⟩ <;> simp only [List.length_map, List.length_range, Build.bMax]
    · omega
    · exact hu.trans (Nat.dvd_mul_right 8 _)

end Sys2Proof.Machine

open Sys2Proof Sys2Proof.Machine

/-- Settles O30: the two conversions are inverse to each other, and each byte has its place. -/
theorem wordByteOrder : Obligations.WordByteOrder := by
  refine ⟨fun W X hX => ⟨bytesOfBlock_blockOfBytes hX, rfl, fun m k _ hk => wordLE_byte _ X m k (by omega)⟩,
    fun W x => ⟨blockOfBytes_bytesOfBlock (eight_dvd_bits W) x, length_bytesOfBlock x, fun k hk => bytesOfBlock_getD x hk⟩,
    rfl⟩

/-- Settles O31: at each width a Word and its bus word have their common bytes at the places R70 says. -/
theorem mixedWidths : Obligations.MixedWidths := by
  intro s base X h
  obtain ⟨hX, h4, hu⟩ := window_bytes h
  have lanes := @wordLE_eq_busWord s.mem base X hX
  refine ⟨fun _ m hm => ?_, fun hW m hm => ?_, fun _ n hn => ?_, fun _ n m hn hm => ?_⟩
  · have := lanes 32 4 (m := m) (p := 0) (a := 4 * m) (q := 0) (by decide) (by decide) (by omega) (by omega)
    rwa [BitVec.extractLsb'_eq_self, BitVec.extractLsb'_eq_self] at this
  · have h8 : 8 ∣ X.length := by simpa [Build.u, Build.bits, hW, Width.bits] using hu
    have low := lanes 64 4 (m := m) (p := 0) (a := 8 * m) (q := 0) (by decide) (by decide) (by omega) (by omega)
    have high := lanes 64 4 (m := m) (p := 4) (a := 8 * m + 4) (q := 0) (by decide) (by decide) (by omega) (by omega)
    rw [BitVec.extractLsb'_eq_self] at low high
    exact ⟨low, high⟩
  · have even := lanes 16 2 (m := 2 * n) (p := 0) (a := 4 * n) (q := 0) (by decide) (by decide) (by omega) (by omega)
    have odd := lanes 16 2 (m := 2 * n + 1) (p := 0) (a := 4 * n) (q := 2) (by decide) (by decide) (by omega) (by omega)
    rw [BitVec.extractLsb'_eq_self] at even odd
    exact ⟨even, odd⟩
  · have := lanes 8 1 (m := 4 * n + m) (p := 0) (a := 4 * n) (q := m) (by decide) (by omega) (by omega) (by omega)
    rwa [BitVec.extractLsb'_eq_self] at this
end

section
/-! Transactions (20_memory.md R61 to R66, R73): which ones the bus refuses, what each register and window word answers, the
bits a register write depends on, and that a plain write repeated changes nothing more. -/

namespace Sys2Proof.Machine

open Sys2Proof

/-! ### Refused transactions (20_memory.md R62 to R64) -/

/-- A transaction answered ERR has no effect. -/
theorem busEffect_of_respond_err {s : State} {x : Txn} (h : s.respond x = .err) : busEffect x s = .next s := by
  cases x with
  | read a size => rfl
  | write a strobes v =>
    refine writeTo_of_not_writable (Bool.eq_false_iff.2 fun hw => ?_) v s
    simp [State.respond, hw] at h

/-- A misaligned, a narrow and an unmapped read are bus errors. -/
theorem respond_read_err {s : State} {a : Offset} {size : ReadSize}
    (h : aligned a = false ∨ size ≠ .word ∨ slotAt s.build a.toNat = .unmapped) : s.respond (.read a size) = .err := by
  have hslot : readSlot s.build a size = .unmapped := by rcases h with h | h | h <;> simp [readSlot, h]
  simp [State.respond, hslot, State.readData]

/-- A misaligned and an unmapped write, and one without all four strobes, are bus errors. -/
theorem respond_write_err {s : State} {a : Offset} {strobes : BitVec 4}
    (h : aligned a = false ∨ strobes ≠ 0b1111#4 ∨ slotAt s.build a.toNat = .unmapped) (v : BusWord) :
    s.respond (.write a strobes v) = .err := by
  have hslot : writeSlot s.build a strobes = .unmapped := by rcases h with h | h | h <;> simp [writeSlot, h]
  simp [State.respond, hslot, Slot.writable]

/-- Nothing stands between the registers and DIN, after the block in DIN and in DOUT, or after the key (10_state.md R31). -/
theorem slotAt_unmapped {b : Build} {a : Nat} (h : (0x01C ≤ a ∧ a ≤ 0x03F) ∨ (0x040 + b.blkBytes ≤ a ∧ a ≤ 0x05F) ∨
    (0x060 + b.blkBytes ≤ a ∧ a ≤ 0x0FF) ∨ 0x100 + b.bMax ≤ a) : slotAt b a = .unmapped := by
  obtain ⟨hblk, -, -⟩ := blk_bounds b
  have hdin : dinBase = 0x040 := rfl
  have hdout : doutBase = 0x060 := rfl
  have hkey : keyBase = 0x100 := rfl
  have hstands := slotAt_stands b a
  generalize slotAt b a = slot at hstands
  cases slot <;> simp only [Slot.standsAt] at hstands
  case unmapped => rfl
  all_goals omega

/-! ### The words of the windows (20_memory.md R65, R66) -/

/-- An aligned offset, and the slot that stands there. -/
theorem aligned_and_slot {b : Build} {a : Nat} {slot : Slot} (ha : a < 512) (h4 : a % 4 = 0) (h : slotAt b a = slot) :
    aligned (BitVec.ofNat 9 a) = true ∧ slotAt b (BitVec.ofNat 9 a).toNat = slot := by
  have e : (BitVec.ofNat 9 a).toNat = a := Nat.mod_eq_of_lt ha
  exact ⟨(aligned_iff _).2 (e.symm ▸ h4), e.symm ▸ h⟩

section
variable {s : State} {n : Nat}

theorem dinWord_slot (h : 4 * n < s.build.blkBytes) : aligned (BitVec.ofNat 9 (0x040 + 4 * n)) = true ∧
    slotAt s.build (BitVec.ofNat 9 (0x040 + 4 * n)).toNat = .din (4 * n) := by
  obtain ⟨hblk, -, -⟩ := blk_bounds s.build
  exact aligned_and_slot (by omega) (by omega) (slotAt_dinW _ n h)

theorem doutWord_slot (h : 4 * n < s.build.blkBytes) : aligned (BitVec.ofNat 9 (0x060 + 4 * n)) = true ∧
    slotAt s.build (BitVec.ofNat 9 (0x060 + 4 * n)).toNat = .dout (4 * n) := by
  obtain ⟨hblk, -, -⟩ := blk_bounds s.build
  exact aligned_and_slot (by omega) (by omega) (slotAt_doutW _ n h)

theorem keyWord_slot (h : 4 * n < s.build.bMax) : aligned (BitVec.ofNat 9 (0x100 + 4 * n)) = true ∧
    slotAt s.build (BitVec.ofNat 9 (0x100 + 4 * n)).toNat = .key (4 * n) := by
  obtain ⟨hmax, -, -⟩ := bMax_bounds s.build
  exact aligned_and_slot (by omega) (by omega) (slotAt_keyW _ n h)

end

/-- A full-width write to a slot that may be written is OK. -/
theorem respond_memWrite_of_writable {s : State} {a : Offset} {slot : Slot} (ha : aligned a = true)
    (hs : slotAt s.build a.toNat = slot) (hw : slot.writable = true) (v : BusWord) :
    s.respond (.memWrite a v) = .okWrite := by
  simp [Txn.memWrite, State.respond, writeSlot, ha, hs, hw]

/-! ### Reserved bits (20_memory.md R65) -/

/-- `n` ones from bit `lo` on. -/
def fieldMask (lo n : Nat) : BusWord := (BitVec.allOnes n).setWidth 32 <<< lo

/-- A field that is 0 masks to 0. -/
theorem and_fieldMask_eq_zero {v : BusWord} {lo n : Nat} (h : v.extractLsb' lo n = 0#n) : v &&& fieldMask lo n = 0#32 := by
  apply BitVec.eq_of_getLsbD_eq
  intro i hi
  have hbit := congrArg (·.getLsbD (i - lo)) h
  simp only [BitVec.getLsbD_extractLsb', BitVec.getLsbD_zero] at hbit
  by_cases hin : lo ≤ i ∧ i - lo < n
  · rw [Nat.add_sub_cancel' hin.1] at hbit
    simp_all
  · simp [fieldMask, hi]
    omega

section
variable {v v' mask : BusWord} (h : v &&& mask = v' &&& mask)
include h

/-- Words that agree under a mask agree in a field the mask keeps. -/
theorem extractLsb'_eq_of_masked {lo n : Nat} (hm : mask.extractLsb' lo n = BitVec.allOnes n) :
    v.extractLsb' lo n = v'.extractLsb' lo n := by
  simpa [BitVec.extractLsb'_and, hm] using congrArg (BitVec.extractLsb' lo n) h

theorem getLsbD_eq_of_masked {i : Nat} (hm : mask.getLsbD i = true) : v.getLsbD i = v'.getLsbD i := by
  simpa [hm] using congrArg (·.getLsbD i) h

end

theorem writeConfig_congr (s : State) {v v' : BusWord} (h : v &&& 0xFFFF00FF#32 = v' &&& 0xFFFF00FF#32) :
    s.writeConfig v = s.writeConfig v' := by
  simp only [State.writeConfig, extractLsb'_eq_of_masked h (lo := 0) (n := 8) (by decide),
    extractLsb'_eq_of_masked h (lo := 16) (n := 16) (by decide)]

theorem writeStatus_congr (s : State) {v v' : BusWord} (h : v &&& 0x0000010C#32 = v' &&& 0x0000010C#32) :
    s.writeStatus v = s.writeStatus v' := by
  simp only [State.writeStatus, getLsbD_eq_of_masked h (i := 2) (by decide), getLsbD_eq_of_masked h (i := 3) (by decide),
    getLsbD_eq_of_masked h (i := 8) (by decide)]

theorem writeIrqEn_congr (s : State) {v v' : BusWord} (h : v &&& 0x00000007#32 = v' &&& 0x00000007#32) :
    s.writeIrqEn v = s.writeIrqEn v' := by
  simp only [State.writeIrqEn, getLsbD_eq_of_masked h (i := 0) (by decide), getLsbD_eq_of_masked h (i := 1) (by decide),
    getLsbD_eq_of_masked h (i := 2) (by decide)]

theorem configWord_reserved (s : State) : s.configWord &&& 0x0000FF00#32 = 0#32 :=
  and_fieldMask_eq_zero (extractLsb'_8_8 _ _ _)

theorem statusWord_reserved (s : State) : s.statusWord &&& 0xFFFF0E00#32 = 0#32 := by
  obtain ⟨-, hlow, -, hhigh⟩ := statusWord_fields s
  rw [show 0xFFFF0E00#32 = fieldMask 9 3 ||| fieldMask 16 16 by decide, BitVec.and_or_distrib_left,
    and_fieldMask_eq_zero hlow, and_fieldMask_eq_zero hhigh, BitVec.or_zero]

theorem irqEnWord_reserved (s : State) : s.irqEnWord &&& 0xFFFFFFF8#32 = 0#32 := by
  obtain ⟨-, -, -, hhigh⟩ := irqEnWord_fields s
  exact and_fieldMask_eq_zero hhigh

/-! ### Repeated writes (20_memory.md R73) -/

/-- The same bytes written twice are written once. -/
theorem Memory.writeBytes_twice {m : Memory} (h : Memory.wf m = true) (a : Nat) (vs : List Byte) :
    writeBytes (writeBytes m a vs) a vs = writeBytes m a vs := by
  have h1 := wf_writeBytes h a vs
  refine eq_of_read (wf_writeBytes h1 a vs) h1 fun x => ?_
  by_cases hx : x < a ∨ a + vs.length ≤ x
  · rw [read_writeBytes_out _ a vs hx]
  · obtain ⟨k, rfl⟩ : ∃ k, x = a + k := ⟨x - a, by omega⟩
    rw [read_writeBytes_in h1 a vs (by omega), read_writeBytes_in h a vs (by omega)]

theorem storeWord_twice {s : State} (h : Memory.wf s.mem = true) (a : Nat) (v : BusWord) :
    (s.storeWord a v).storeWord a v = s.storeWord a v :=
  congrArg (fun m => { s with mem := m }) (Memory.writeBytes_twice h a (laneBytes v))

/-- A write to a slot other than CMD and STATUS gives the same state when it is repeated. -/
theorem writeTo_twice {slot : Slot} {v : BusWord} {s t : State} (hwf : Memory.wf s.mem = true) (hc : slot ≠ .cmd)
    (hs : slot ≠ .status) (h : writeTo slot v s = .next t) : writeTo slot v t = .next t := by
  cases slot with
  | cmd => exact absurd rfl hc
  | status => exact absurd rfl hs
  | config => cases h; rfl
  | irqEn => cases h; rfl
  | din k => cases h; exact congrArg Host.Outcome.next (storeWord_twice hwf _ v)
  | key k => cases h; exact congrArg Host.Outcome.next (storeWord_twice hwf _ v)
  | _ => rfl

/-- A command word written while BUSY is rejected. -/
theorem issueWord_of_busy {s : State} (h : s.busy = true) (w : BusWord) : issueWord w s = .next s.reject := by
  rcases issueWord_cases w s with ⟨e, -⟩ | ⟨_, -, hb, -⟩ | ⟨-, hb, -⟩ | ⟨-, hb, -⟩ | ⟨-, hb, -⟩
  · exact e
  all_goals rw [h] at hb; cases hb

theorem busEffect_write_cmd_of_busy {s : State} (h : s.busy = true) (w : BusWord) :
    busEffect (.memWrite 0x00C#9 w) s = .next s.reject :=
  (busEffect_memWrite rfl rfl w).trans (issueWord_of_busy h w)

/-- The first rejection is seen in REJECTED. -/
theorem reject_ne {s : State} (h : s.rejected = false) : s.reject ≠ s := by
  intro e
  rw [← e] at h
  cases h

/-- Only a write to offset 0x00C reaches CMD. -/
theorem offset_of_writeSlot_cmd {b : Build} {a : Offset} {strobes : BitVec 4} (h : writeSlot b a strobes = .cmd) :
    a = 0x00C#9 := by
  obtain ⟨-, -, hs⟩ := writeSlot_ne h (by decide)
  exact BitVec.eq_of_toNat_eq (slot_cmd hs)

/-- Only a write to offset 0x010 reaches STATUS. -/
theorem offset_of_writeSlot_status {b : Build} {a : Offset} {strobes : BitVec 4} (h : writeSlot b a strobes = .status) :
    a = 0x010#9 := by
  obtain ⟨-, -, hs⟩ := writeSlot_ne h (by decide)
  exact BitVec.eq_of_toNat_eq (slot_status hs)

end Sys2Proof.Machine

open Sys2Proof Sys2Proof.Machine

/-- Settles O32: a write stores one bus word at its slot, and a read returns it. -/
theorem byteLanes : Obligations.ByteLanes := by
  intro s v n hwf
  refine ⟨fun h => ?_, fun h => ?_⟩
  · obtain ⟨hda, hds⟩ := dinWord_slot h
    obtain ⟨hoa, hos⟩ := doutWord_slot h
    obtain ⟨hmem, hin, hout⟩ := storeWord_spec s (dinBase + 4 * n) v hwf
    refine ⟨⟨_, busEffect_memWrite hda hds v, hmem, fun k hk => ?_, hout⟩, respond_memRead hda hds rfl,
      respond_memRead hoa hos rfl⟩
    rw [State.dinByte, ← Nat.add_assoc, hin k hk]
  · obtain ⟨hka, hks⟩ := keyWord_slot h
    obtain ⟨hmem, hin, hout⟩ := storeWord_spec s (keyBase + 4 * n) v hwf
    refine ⟨_, busEffect_memWrite hka hks v, hmem, fun k hk => ?_, hout⟩
    rw [State.keyByte, ← Nat.add_assoc, hin k hk]

/-- Settles O33: a refused transaction reaches no slot. -/
theorem refusedTransactions : Obligations.RefusedTransactions := by
  refine fun s => ⟨fun _ => busEffect_of_respond_err, fun a size strobes v h => ?_,
    fun a size h => respond_read_err (.inr (.inl h)), fun a strobes v h => respond_write_err (.inr (.inl h)) v,
    fun a size strobes v h => ?_⟩
  · have ha : aligned a = false := beq_eq_false_iff_ne.2 h
    exact ⟨respond_read_err (.inl ha), respond_write_err (.inl ha) v⟩
  · have hs := slotAt_unmapped h
    exact ⟨respond_read_err (.inr (.inr hs)), respond_write_err (.inr (.inr hs)) v⟩

/-- Settles O34: each transaction is answered by the rights of its slot, and the effect of a register write depends on the
register's fields alone. -/
theorem accessRights : Obligations.AccessRights := by
  intro s v n
  refine ⟨⟨respond_memWrite_of_not_writable rfl rfl rfl v, respond_memWrite_of_not_writable rfl rfl rfl v,
      respond_memWrite_of_not_writable rfl rfl rfl v, fun h => ?_⟩, fun _ => busEffect_of_respond_err,
    ⟨respond_memRead rfl rfl rfl, fun h => ?_⟩, fun _ _ => rfl,
    ⟨respond_memWrite_of_writable rfl rfl rfl v, respond_memWrite_of_writable rfl rfl rfl v,
      respond_memWrite_of_writable rfl rfl rfl v, respond_memWrite_of_writable rfl rfl rfl v, fun h => ?_, fun h => ?_⟩,
    ⟨_, _, _, respond_read_config s, configWord_reserved s, respond_read_status s, statusWord_reserved s,
      respond_read_irqEn s, irqEnWord_reserved s⟩, fun v' => ⟨fun h => ?_, fun h => ?_, fun h => ?_⟩⟩
  · obtain ⟨ha, hs⟩ := doutWord_slot h
    exact respond_memWrite_of_not_writable ha hs rfl v
  · obtain ⟨ha, hs⟩ := keyWord_slot h
    exact respond_memRead ha hs rfl
  · obtain ⟨ha, hs⟩ := dinWord_slot h
    exact respond_memWrite_of_writable ha hs rfl v
  · obtain ⟨ha, hs⟩ := keyWord_slot h
    exact respond_memWrite_of_writable ha hs rfl v
  · rw [busEffect_write_config, busEffect_write_config, writeConfig_congr s h]
  · rw [busEffect_write_status, busEffect_write_status, writeStatus_congr s h]
  · rw [busEffect_write_irqEn, busEffect_write_irqEn, writeIrqEn_congr s h]

/-- Settles O35: a plain write finds its own values there when it is repeated; the second ENCRYPT of two finds the core busy
and sets REJECTED. -/
theorem sideEffects : Obligations.SideEffects := by
  refine ⟨fun _ _ _ => rfl, fun s t a v hwf hcmd hstatus h => ?_, ?_⟩
  · obtain ⟨hbuild, -⟩ := busEffect_surroundings h
    simp only [Txn.memWrite, busEffect, hbuild] at h ⊢
    exact writeTo_twice hwf (fun hc => hcmd (offset_of_writeSlot_cmd hc)) (fun hs => hstatus (offset_of_writeSlot_status hs)) h
  · exact ⟨{ State.reset with keyValid := true }, _, _, encode .encrypt, rfl, busEffect_write_cmd_of_busy rfl _,
      reject_ne rfl⟩
end

section
/-! What an operation in flight computes is fixed at its start (20_memory.md R78; 44_command_sequencer.md R186, R188): a
transaction while BUSY leaves alone everything the completion reads. -/

namespace Sys2Proof.Machine

open Sys2Proof

/-- Everything the completion reads, and DOUTBUF, are as they were. -/
structure KeepsOperation (s u : State) : Prop extends KeepsContext s u where
  build : u.build = s.build
  L : u.L = s.L
  snapR : u.snapR = s.snapR
  snapB : u.snapB = s.snapB
  snapBlk : u.snapBlk = s.snapBlk
  draws : u.draws = s.draws
  doutBlock : u.doutBlock = s.doutBlock
  mem_wf : Memory.wf s.mem = true → Memory.wf u.mem = true

namespace KeepsOperation

variable {s t u : State}

theorem refl (s : State) : KeepsOperation s s := ⟨⟨rfl, rfl, rfl, rfl, rfl⟩, rfl, rfl, rfl, rfl, rfl, rfl, rfl, id⟩

theorem trans (h : KeepsOperation s t) (h' : KeepsOperation t u) : KeepsOperation s u where
  phase := h'.phase.trans h.phase
  keyValid := h'.keyValid.trans h.keyValid
  ctxR := h'.ctxR.trans h.ctxR
  ctxB := h'.ctxB.trans h.ctxB
  S := h'.S.trans h.S
  build := h'.build.trans h.build
  L := h'.L.trans h.L
  snapR := h'.snapR.trans h.snapR
  snapB := h'.snapB.trans h.snapB
  snapBlk := h'.snapBlk.trans h.snapBlk
  draws := h'.draws.trans h.draws
  doutBlock := h'.doutBlock.trans h.doutBlock
  mem_wf := h'.mem_wf ∘ h.mem_wf

end KeepsOperation

theorem busEffect_doutBlock {x : Txn} {s u : State} (h : busEffect x s = .next u) : u.doutBlock = s.doutBlock := by
  obtain ⟨hbuild, -⟩ := busEffect_surroundings h
  rw [doutBlock_eq, doutBlock_eq, hbuild]
  exact List.map_congr_left fun k hk => busEffect_doutByte h (List.mem_range.1 hk)

/-- A transaction while BUSY keeps the operation: a command word written then is rejected. -/
theorem busEffect_keepsOperation {x : Txn} {s u : State} (hb : s.busy = true) (h : busEffect x s = .next u) :
    KeepsOperation s u := by
  have hdout := busEffect_doutBlock h
  rcases busEffect_cases h with rfl | ⟨a, v, -, rfl | ⟨-, rfl⟩ | rfl | ⟨-, hi⟩ | ⟨k, -, rfl⟩ | ⟨k, -, rfl⟩⟩
  case inr.inr.inr.inr.inl =>
    obtain rfl := Host.Outcome.next.inj ((issueWord_of_busy hb v).symm.trans hi)
    exact { KeepsOperation.refl _ with }
  case inr.inr.inr.inr.inr.inl | inr.inr.inr.inr.inr.inr =>
    exact { KeepsOperation.refl _ with doutBlock := hdout, mem_wf := fun hwf => Memory.wf_writeBytes hwf _ _ }
  all_goals exact { KeepsOperation.refl _ with }

/-- Any number of transactions while BUSY keep the operation. -/
theorem busRun_keepsOperation (ts : List Txn) {s : State} (hb : s.busy = true) :
    ∃ t, busRun ts s = .next t ∧ KeepsOperation s t := by
  induction ts generalizing s with
  | nil => exact ⟨s, rfl, .refl s⟩
  | cons x ts ih =>
    obtain ⟨u, hu⟩ := busEffect_next x s
    have hsu := busEffect_keepsOperation hb hu
    obtain ⟨t, ht, hut⟩ := ih (s := u) (by rwa [busy_eq_true, hsu.phase, ← busy_eq_true])
    exact ⟨t, by rw [busRun, hu]; exact ht, hsu.trans hut⟩

/-- DOUTBUF after a block's completion is the result. -/
theorem doutBlock_completeBlock {s : State} (hwf : Memory.wf s.mem = true) {result : List Byte}
    (hl : result.length = s.build.blkBytes) : (s.completeBlock result).doutBlock = result := by
  rw [State.doutBlock, State.completeBlock_mem, State.completeBlock_build, ← hl, Memory.readBytes_writeBytes hwf]

namespace KeepsOperation

variable {s t : State}

theorem map_store_scheduledTable (h : KeepsOperation s t) : t.scheduledTable.map store = s.scheduledTable.map store := by
  rw [map_store_scheduledTable_eq, map_store_scheduledTable_eq, h.L, h.snapR, h.snapB, h.build]

theorem encryptedBytes (h : KeepsOperation s t) : t.encryptedBytes = s.encryptedBytes := by
  rw [encryptedBytes_eq, encryptedBytes_eq, h.S, h.ctxR, h.snapBlk, h.build]

theorem decryptedBytes (h : KeepsOperation s t) : t.decryptedBytes = s.decryptedBytes := by
  rw [decryptedBytes_eq, decryptedBytes_eq, h.S, h.ctxR, h.snapBlk, h.build]

/-- The completion writes the same table and context. -/
theorem complete_keepsContext (h : KeepsOperation s t) : KeepsContext s.complete t.complete := by
  have hp := h.phase
  cases hs : s.phase with
  | idle => rw [complete_idle hs, complete_idle (hp.trans hs)]; exact h.toKeepsContext
  | sched =>
    rw [complete_sched hs, complete_sched (hp.trans hs)]
    refine ⟨rfl, rfl, h.snapR, h.snapB, ?_⟩
    rw [State.completeSchedule_S, State.completeSchedule_S, h.map_store_scheduledTable, h.build, h.draws, h.S]
  | enc =>
    rw [complete_enc hs, complete_enc (hp.trans hs)]
    exact ⟨rfl, h.keyValid, h.ctxR, h.ctxB, h.S⟩
  | dec =>
    rw [complete_dec hs, complete_dec (hp.trans hs)]
    exact ⟨rfl, h.keyValid, h.ctxR, h.ctxB, h.S⟩

/-- The completion writes the same result. -/
theorem complete_doutBlock (h : KeepsOperation s t) (hwf : Memory.wf s.mem = true) :
    t.complete.doutBlock = s.complete.doutBlock := by
  have hp := h.phase
  cases hs : s.phase with
  | idle => rw [complete_idle hs, complete_idle (hp.trans hs), h.doutBlock]
  | sched => rw [complete_sched hs, complete_sched (hp.trans hs)]; exact h.doutBlock
  | enc =>
    rw [complete_enc hs, complete_enc (hp.trans hs), doutBlock_completeBlock hwf (length_encryptedBytes s),
      doutBlock_completeBlock (h.mem_wf hwf) (length_encryptedBytes t), h.encryptedBytes]
  | dec =>
    rw [complete_dec hs, complete_dec (hp.trans hs), doutBlock_completeBlock hwf (length_decryptedBytes s),
      doutBlock_completeBlock (h.mem_wf hwf) (length_decryptedBytes t), h.decryptedBytes]

end KeepsOperation

end Sys2Proof.Machine

open Sys2Proof Sys2Proof.Machine

/-- Settles O46: by induction on the transactions, each of them finds the core BUSY and keeps the operation. -/
theorem inFlightInputsAreFixed : Obligations.InFlightInputsAreFixed := by
  intro s ts hwf hp
  obtain ⟨t, ht, h⟩ := busRun_keepsOperation ts ((busy_eq_true s).2 hp)
  have hc := h.complete_keepsContext
  exact ⟨t, ht, h.phase, h.snapR, h.snapB, h.snapBlk, hc.S, hc.keyValid, hc.ctxR, hc.ctxB, h.complete_doutBlock hwf⟩
end

section
/-! Command words (30_encoding.md R90 to R92): the decoder undoes the encoder and the encoder the decoder, on words and on
bytes; what is no command's word is ILLEGAL. -/

namespace Sys2Proof

/-- The encoding laws of the model, for every command. -/
theorem encoding_laws (i : Instr) : Laws.Encoding.Statement i := by
  cases i with
  | schedule => exact Laws.Encoding.schedule
  | encrypt => exact Laws.Encoding.encrypt
  | decrypt => exact Laws.Encoding.decrypt

theorem decode_encode (i : Instr) : decode (encode i) = .ok i := by
  obtain ⟨-, -, -, hword, -⟩ := encoding_laws i
  exact hword

theorem decodeBytes_encodeBytes (i : Instr) (rest : List Byte) :
    decodeBytes (encodeBytes i ++ rest) = .ok (i, rest) := by
  obtain ⟨-, -, -, -, hbytes⟩ := encoding_laws i
  exact hbytes rest

/-- The lanes of a bus word put together from four bytes are these bytes (20_memory.md R66). -/
theorem laneBytes_append (b0 b1 b2 b3 : Byte) : laneBytes (b3 ++ b2 ++ b1 ++ b0) = [b0, b1, b2, b3] := by
  simp (disch := decide) only [laneBytes, BitVec.extractLsb'_append_eq_right, BitVec.extractLsb'_append_eq_of_le,
    Nat.reduceSub, BitVec.extractLsb'_eq_self]

/-- Bytes decode to a command when their first four are the lanes of a word that does. -/
theorem decodeBytes_ok {bs rest : List Byte} {i : Instr} (h : decodeBytes bs = .ok (i, rest)) :
    ∃ w, decode w = .ok i ∧ bs = laneBytes w ++ rest := by
  unfold decodeBytes at h
  split at h
  case h_1 b0 b1 b2 b3 tail =>
    cases hd : decode (b3 ++ b2 ++ b1 ++ b0) with
    | error e => rw [hd] at h; cases h
    | ok j =>
      rw [hd] at h
      cases h
      exact ⟨_, hd, by rw [laneBytes_append]; rfl⟩
  case h_2 => cases h

/-- A word that is no command's decodes to an error. -/
theorem decode_error_of_ne_encode {w : BusWord} (h : ∀ i, w ≠ encode i) : ∃ e, decode w = .error e := by
  cases hd : decode w with
  | error e => exact ⟨e, rfl⟩
  | ok i => exact absurd (Machine.eq_encode_of_decode hd) (h i)

/-- An ILLEGAL word issued while not BUSY fails with IllegalCommand (60_exceptions.md R207). -/
theorem Machine.issueWord_of_decode_error {w : BusWord} {e : Illegal} (h : decode w = .error e) {s : Machine.State}
    (hb : s.busy = false) :
    issueWord w s = .next ((s.issueEffects (opField w)).raiseError .illegalCommand) := by
  rw [issueWord, h, issueIllegal, issue_of_idle hb]

end Sys2Proof

open Sys2Proof Sys2Proof.Machine

/-- Settles O2: the encoding laws say that decoding undoes encoding; conversely a decoded word has RSV = 0 and its command's
OP, and decoded bytes are the lanes of such a word. -/
theorem encodeAndDecodeAgree : Obligations.EncodeAndDecodeAgree := by
  refine ⟨decode_encode, fun w i => eq_encode_of_decode, decodeBytes_encodeBytes, fun bs rest i h => ?_⟩
  obtain ⟨w, hw, rfl⟩ := decodeBytes_ok h
  rw [eq_encode_of_decode hw, encodeBytes]

/-- Settles O1: the three words are the commands' encodings, any other word is ILLEGAL, and BUSY rejects every word. -/
theorem commandDecodingIsTotal : Obligations.CommandDecodingIsTotal := by
  intro w
  refine ⟨?_, ?_, ?_, fun h1 h2 h3 => ?_, fun s hb => issueWord_of_busy hb w⟩
  · rintro rfl
    exact decode_encode .schedule
  · rintro rfl
    exact decode_encode .encrypt
  · rintro rfl
    exact decode_encode .decrypt
  · obtain ⟨e, he⟩ : ∃ e, decode w = .error e := decode_error_of_ne_encode fun
      | .schedule => h1
      | .encrypt => h2
      | .decrypt => h3
    exact ⟨⟨e, he⟩, fun s hb => ⟨_, issueWord_of_decode_error he hb, rfl, rfl⟩⟩

/-- Settles O3: seven words, decoded. -/
theorem commandWordsDecode : Obligations.CommandWordsDecode := by
  refine ⟨decode_encode .schedule, decode_encode .encrypt, decode_encode .decrypt, ?_, ?_, ?_, ?_⟩ <;> decide
end

section
/-! Host scripts (30_encoding.md R96): the step of a master's line, and what it does to the master's script and flag. -/

namespace Sys2Proof.Machine

open Sys2Proof

/-- The step of the next line of the master that has the turn: the line's transaction, and its answer. -/
theorem step_of_nextLine {s : State} {m : Nat} {line : Line} (hturn : s.nextTurn = some (.host m))
    (hline : s.nextLine m = some line) (hr : s.rstN = true) :
    ∃ u, busEffect (lineTxn line) s.popTurn = .next u ∧ step s = .next (u.answer m line (s.respond (lineTxn line))) := by
  obtain ⟨u, hu⟩ := busEffect_next (lineTxn line) s.popTurn
  rcases hostTurn_cases m s.popTurn with ⟨hnone, -⟩ | ⟨_, -, hreset, -⟩ | ⟨line', hline', -, hhost⟩
  · cases hline.symm.trans hnone
  · cases hr.symm.trans hreset
  · obtain rfl := Option.some.inj (hline.symm.trans hline')
    exact ⟨u, hu, by rw [step_of_turn hturn, takeTurn, hhost, hu]; rfl⟩

theorem nextLine_of_script {s : State} {m : Nat} {h : Master} {line : Line} {rest : List Line}
    (hm : s.masters[m]? = some h) (hs : h.script = line :: rest) : s.nextLine m = some line := by
  simp [State.nextLine, hm, hs]

/-- A line's step answers the master that performs it and no other. -/
theorem masters_of_step_line {s t : State} {m : Nat} {line : Line} (hturn : s.nextTurn = some (.host m))
    (hline : s.nextLine m = some line) (hr : s.rstN = true) (ht : step s = .next t) :
    t.masters = s.masters.modify m (Master.answered line (s.respond (lineTxn line))) := by
  obtain ⟨u, hu, hstep⟩ := step_of_nextLine hturn hline hr
  obtain rfl := Host.Outcome.next.inj (hstep.symm.trans ht)
  obtain ⟨-, -, hmasters, -⟩ := busEffect_surroundings hu
  rw [State.answer_masters, hmasters, State.popTurn_masters]

namespace Master

variable {h : Master} {line : Line} {r : Response}

theorem answered_failed_eq_false :
    (h.answered line r).failed = false ↔ h.failed = false ∧ lineAccepts line r = true := by
  simp [answered]

theorem answered_failed_of_accepts (ha : lineAccepts line r = true) : (h.answered line r).failed = h.failed := by
  simp [answered, ha]

theorem answered_script_of_repeats (hr : lineRepeats line r = true) : (h.answered line r).script = h.script := by
  simp [answered, hr]

theorem answered_script_of_once {rest : List Line} (hs : h.script = line :: rest) (hr : lineRepeats line r = false) :
    (h.answered line r).script = rest := by
  simp [answered, hr, hs]

/-- A line performed once goes off the script, and fails it when the response is not what `ok` says it requires. -/
theorem answered_once {rest : List Line} {ok : Prop} (hs : h.script = line :: rest) (hr : lineRepeats line r = false)
    (hok : lineAccepts line r = true ↔ ok) : (h.answered line r).script = rest ∧
    ((h.answered line r).failed = false ↔ h.failed = false ∧ ok) :=
  ⟨answered_script_of_once hs hr, by rw [answered_failed_eq_false, hok]⟩

end Master

/-- `RD off` accepts any data. -/
theorem lineAccepts_rd (off : Offset) (r : Response) : lineAccepts (.rd off) r = true ↔ ∃ v, r = .okRead v := by
  cases r with
  | okRead v => simp [lineAccepts]
  | okWrite => simp [lineAccepts]
  | err => simp [lineAccepts]

end Sys2Proof.Machine

open Sys2Proof Sys2Proof.Machine

/-- Settles O55: the step answers the line's master alone, and the answer is read off the line's check and repetition. -/
theorem scriptLines : Obligations.ScriptLines := by
  intro s t m h line rest hr hturn hm hs hstep
  have hmasters := masters_of_step_line hturn (nextLine_of_script hm hs) hr hstep
  refine ⟨h.answered line (s.respond (lineTxn line)), by simp [hmasters, hm], rfl, ?_, ?_, ?_, ?_, ?_, ?_, ?_, ?_⟩
  case refine_6 =>
    rintro off mask val v rfl hv
    rw [lineTxn, hv]
    refine ⟨Master.answered_failed_of_accepts rfl, fun heq => ?_, fun hne => ?_⟩
    · exact Master.answered_script_of_once hs (by simp [lineRepeats, heq])
    · exact (Master.answered_script_of_repeats (by simp [lineRepeats, hne])).trans hs
  case refine_7 =>
    rintro off mask val rfl herr
    rw [lineTxn, herr]
    exact ⟨Bool.or_true _, Master.answered_script_of_once hs rfl⟩
  case refine_8 =>
    intro k hk
    rw [hmasters]
    exact List.getElem?_modify_ne _ _ hk.symm
  · rintro off data rfl
    exact Master.answered_once hs rfl beq_iff_eq
  · rintro off data rfl
    exact Master.answered_once hs rfl beq_iff_eq
  · rintro off rfl
    exact Master.answered_once hs rfl (lineAccepts_rd off _)
  · rintro off data rfl
    exact Master.answered_once hs rfl beq_iff_eq
  · rintro off rfl
    exact Master.answered_once hs rfl beq_iff_eq
end

section
/-! The pseudo-instructions KEY and BLK (30_encoding.md R97): the writes they expand to store the bytes given, padded with
0x00 to whole bus words, in one piece at the window's base. -/

namespace Sys2Proof.Machine

open Sys2Proof

/-- The first `n` of the bytes given, 0x00 past their end. -/
def paddedBytes (bytes : List Byte) (n : Nat) : List Byte := (List.range n).map (padByte bytes)

@[simp] theorem length_paddedBytes (bytes : List Byte) (n : Nat) : (paddedBytes bytes n).length = n := by
  simp [paddedBytes]

theorem paddedBytes_self (bytes : List Byte) : paddedBytes bytes bytes.length = bytes := by
  apply List.ext_getElem (by simp)
  intro k _ hk
  simp [paddedBytes, padByte, hk]

/-- One bus word more: its lanes are the next four bytes. -/
theorem paddedBytes_word (bytes : List Byte) (m : Nat) :
    paddedBytes bytes (4 * (m + 1)) = paddedBytes bytes (4 * m) ++ laneBytes (wordAt bytes m) := by
  rw [wordAt, laneBytes_append]
  simp [paddedBytes, Nat.mul_add, List.range_succ]

theorem Memory.writeBytes_append (m : Memory) (a : Nat) (vs ws : List Byte) :
    writeBytes m a (vs ++ ws) = writeBytes (writeBytes m a vs) (a + vs.length) ws := by
  induction vs generalizing m a with
  | nil => rfl
  | cons v vs ih =>
    simp only [List.cons_append, writeBytes, List.length_cons, ih]
    congr 1
    omega

/-- Padded bytes stored in one piece read back one by one. -/
theorem Memory.read_writeBytes_paddedBytes {m : Memory} (h : wf m = true) (a : Nat) (bytes : List Byte) {n k : Nat}
    (hk : k < n) : read (writeBytes m a (paddedBytes bytes n)) (a + k) = padByte bytes k := by
  rw [read_writeBytes_in h a _ (by simpa using hk)]
  simp [paddedBytes]

theorem busRun_append {ts us : List Txn} {s t : State} (h : busRun ts s = .next t) :
    busRun (ts ++ us) s = busRun us t := by
  induction ts generalizing s with
  | nil => cases h; rfl
  | cons x ts ih =>
    obtain ⟨u, hu⟩ := busEffect_next x s
    simp only [List.cons_append, busRun, hu] at h ⊢
    exact ih h

theorem busRun_singleton {x : Txn} {s t : State} (h : busEffect x s = .next t) : busRun [x] s = .next t := by
  simp only [busRun, h]

/-- The writes of the first `n` bus words of a window. -/
def wordWrites (base : Nat) (bytes : List Byte) (n : Nat) : List Txn :=
  (List.range n).map fun m => .memWrite (windowOffset base m) (wordAt bytes m)

theorem lineTxns_key (bytes : List Byte) :
    (expand (.key bytes)).map lineTxn = wordWrites keyBase bytes ((bytes.length + 3) / 4) :=
  List.map_map

theorem lineTxns_blk (bytes : List Byte) :
    (expand (.blk bytes)).map lineTxn = wordWrites dinBase bytes (bytes.length / 4) :=
  List.map_map

/-- A slot of the build in which a bus word of a window may be stored: the word at `base + 4m`. -/
structure StoresWord (b : Build) (base m : Nat) (slot : Slot) : Prop where
  aligned : aligned (windowOffset base m) = true
  slotAt : slotAt b (windowOffset base m).toNat = slot
  writable : slot.writable = true
  writeTo : ∀ (v : BusWord) (s : State), writeTo slot v s = .next (s.storeWord (base + 4 * m) v)

theorem StoresWord.busEffect {b : Build} {base m : Nat} {slot : Slot} (h : StoresWord b base m slot) {s : State}
    (hb : s.build = b) (v : BusWord) :
    busEffect (.memWrite (windowOffset base m) v) s = .next (s.storeWord (base + 4 * m) v) :=
  (busEffect_memWrite h.aligned (hb ▸ h.slotAt) v).trans (h.writeTo v s)

theorem storesWord_din {s : State} {m : Nat} (h : 4 * m < s.build.blkBytes) :
    StoresWord s.build dinBase m (.din (4 * m)) := by
  obtain ⟨ha, hs⟩ := dinWord_slot h
  exact ⟨ha, hs, rfl, fun _ _ => rfl⟩

theorem storesWord_key {s : State} {m : Nat} (h : 4 * m < s.build.bMax) :
    StoresWord s.build keyBase m (.key (4 * m)) := by
  obtain ⟨ha, hs⟩ := keyWord_slot h
  exact ⟨ha, hs, rfl, fun _ _ => rfl⟩

section
variable {s : State} {base n : Nat} (bytes : List Byte) (h : ∀ m, m < n → ∃ slot, StoresWord s.build base m slot)
include h

theorem respond_wordWrites : ∀ x ∈ wordWrites base bytes n, s.respond x = .okWrite := by
  intro x hx
  obtain ⟨m, hm, rfl⟩ := List.mem_map.1 hx
  obtain ⟨slot, hslot⟩ := h m (List.mem_range.1 hm)
  exact respond_memWrite_of_writable hslot.aligned hslot.slotAt hslot.writable _

/-- The writes of a window's words store its bytes in one piece. -/
theorem busRun_wordWrites : busRun (wordWrites base bytes n) s =
    .next { s with mem := Memory.writeBytes s.mem base (paddedBytes bytes (4 * n)) } := by
  induction n with
  | zero => rfl
  | succ n ih =>
    have hfirst := ih fun m hm => h m (Nat.lt_succ_of_lt hm)
    obtain ⟨slot, hslot⟩ := h n (Nat.lt_succ_self n)
    rw [wordWrites, List.range_succ, List.map_append, ← wordWrites, busRun_append hfirst, paddedBytes_word,
      Memory.writeBytes_append, length_paddedBytes]
    exact busRun_singleton (hslot.busEffect (by rfl) _)

end

end Sys2Proof.Machine

open Sys2Proof Sys2Proof.Machine

/-- Settles O56: the writes store the padded bytes in one piece, and reads inside and outside it are known. -/
theorem keyAndBlockPseudoInstructions : Obligations.KeyAndBlockPseudoInstructions := by
  intro s bytes hwf
  refine ⟨fun hkey => ?_, fun hblk => ?_⟩
  · rw [lineTxns_key]
    obtain ⟨-, hlen⟩ : 1 ≤ bytes.length ∧ bytes.length ≤ s.build.bMax := by
      simpa only [Pseudo.wellFormed, Bool.and_eq_true, decide_eq_true_eq] using hkey
    obtain ⟨-, -, h4⟩ := bMax_bounds s.build
    have hwords : ∀ m, m < (bytes.length + 3) / 4 → ∃ slot, StoresWord s.build keyBase m slot :=
      fun m hm => ⟨_, storesWord_key (by omega)⟩
    refine ⟨respond_wordWrites bytes hwords, _, busRun_wordWrites bytes hwords, rfl, fun k hk => ?_, fun k hk hk' => ?_,
      fun a ha => ?_⟩
    · exact Memory.read_writeBytes_paddedBytes hwf _ _ (by omega)
    · exact (Memory.read_writeBytes_paddedBytes hwf _ _ hk').trans (List.getD_eq_default _ _ hk)
    · exact Memory.read_writeBytes_out _ _ _ (by simpa using ha)
  · rw [lineTxns_blk]
    have hlen : bytes.length = s.build.blkBytes := by simpa [Pseudo.wellFormed] using hblk
    obtain ⟨-, -, h4⟩ := blk_bounds s.build
    have hwords : ∀ m, m < bytes.length / 4 → ∃ slot, StoresWord s.build dinBase m slot :=
      fun m hm => ⟨_, storesWord_din (by omega)⟩
    have hpad : paddedBytes bytes (4 * (bytes.length / 4)) = bytes := by
      rw [show 4 * (bytes.length / 4) = bytes.length by omega, paddedBytes_self]
    have hrun := busRun_wordWrites bytes hwords
    rw [hpad] at hrun
    refine ⟨respond_wordWrites bytes hwords, _, hrun, rfl, ?_, fun a ha => ?_⟩
    · rw [State.dinBlock, ← hlen]
      exact Memory.readBytes_writeBytes hwf dinBase bytes
    · exact Memory.read_writeBytes_out _ _ _ (hlen ▸ ha)
end

section
/-! The datapath units (40_wordops.md R110 to R118). The modular units are the bit vectors' own `+`, `-`, `*`; a rotation is
known by where it moves each bit, from which its laws follow. -/

namespace Sys2Proof.Machine

open Sys2Proof

/-! ### The modular units -/

section
variable {w : Nat} (a b : Word w)

theorem toNat_subMod : ((subMod a b).toNat : Int) = ((a.toNat : Int) - b.toNat) % (2 ^ w : Nat) := by
  rw [subMod, BitVec.toNat_ofInt]
  exact Int.toNat_of_nonneg (Int.emod_nonneg _ (by positivity))

theorem subMod_eq_addMod_complement : subMod a b = addMod a (BitVec.ofNat w (2 ^ w - b.toNat)) := by
  have hneg : -b = BitVec.ofNat w (2 ^ w - b.toNat) := BitVec.eq_of_toNat_eq (by simp)
  rw [subMod_eq, addMod_eq, BitVec.sub_eq_add_neg, hneg]

theorem toNat_subMod_zero_one (w : Nat) : (subMod 0#w 1#w).toNat = 2 ^ w - 1 := by
  rw [subMod_eq, BitVec.zero_sub, BitVec.neg_one_eq_allOnes, BitVec.toNat_allOnes]

/-- The low W bits of the product are the same for signed and for unsigned operands. -/
theorem mulMod_eq_ofInt_toInt : mulMod a b = BitVec.ofInt w (a.toInt * b.toInt) := by
  rw [mulMod_eq, BitVec.ofInt_mul, BitVec.ofInt_toInt, BitVec.ofInt_toInt]

/-- Reducing a factor modulo 2^W does not change the product. -/
theorem mulMod_ofNat (n : Nat) : mulMod a (BitVec.ofNat w n) = BitVec.ofNat w (a.toNat * n) := by
  rw [mulMod_eq, BitVec.ofNat_mul, BitVec.ofNat_toNat, BitVec.setWidth_eq]

end

/-! ### Rotations -/

section
variable {w : Nat} (x : Word w)

theorem rotl_of_mod_eq_zero {s : Nat} (h : s % w = 0) : rotl x s = x := if_pos h

theorem rotr_of_mod_eq_zero {s : Nat} (h : s % w = 0) : rotr x s = x := if_pos h

/-- A rotation to the left depends on its amount modulo W only. -/
theorem rotl_congr {s t : Nat} (h : s % w = t % w) : rotl x s = rotl x t := by simp only [rotl, h]

/-- A rotation to the right depends on its amount modulo W only. -/
theorem rotr_congr {s t : Nat} (h : s % w = t % w) : rotr x s = rotr x t := by simp only [rotr, h]

/-- `rotl` is the rotation of bit vectors. -/
theorem rotl_eq_rotateLeft (s : Nat) : rotl x s = x.rotateLeft s := by
  by_cases h : s % w = 0
  · simp [rotl_of_mod_eq_zero x h, BitVec.rotateLeft_def, h, BitVec.ushiftRight_eq_zero]
  · simp [rotl, BitVec.rotateLeft_def, h]

/-- `rotr` is the rotation of bit vectors. -/
theorem rotr_eq_rotateRight (s : Nat) : rotr x s = x.rotateRight s := by
  by_cases h : s % w = 0
  · simp [rotr_of_mod_eq_zero x h, BitVec.rotateRight_def, h]
  · simp [rotr, BitVec.rotateRight_def, h]

/-- Where `rotl` moves bit `i` (R114). -/
theorem getLsbD_rotl {i : Nat} (hi : i < w) (s : Nat) : (rotl x s).getLsbD ((i + s) % w) = x.getLsbD i := by
  have hs : s % w < w := Nat.mod_lt _ (by omega)
  rw [rotl_eq_rotateLeft, BitVec.getLsbD_rotateLeft, ← Nat.add_mod_mod]
  obtain hlt | hge := Nat.lt_or_ge (i + s % w) w
  · simp [Nat.mod_eq_of_lt hlt, hlt]
  · have hwrap : (i + s % w) % w = i + s % w - w := by
      rw [Nat.mod_eq_sub_mod hge, Nat.mod_eq_of_lt (by omega)]
    rw [hwrap, decide_eq_true (by omega), cond_true]
    congr 1
    omega

/-- Where `rotr` takes bit `i` from (R115). -/
theorem getLsbD_rotr {i : Nat} (hi : i < w) (s : Nat) : (rotr x s).getLsbD i = x.getLsbD ((i + s) % w) := by
  have hs : s % w < w := Nat.mod_lt _ (by omega)
  rw [rotr_eq_rotateRight, BitVec.getLsbD_rotateRight, ← Nat.add_mod_mod]
  obtain hlt | hge := Nat.lt_or_ge (i + s % w) w
  · rw [Nat.mod_eq_of_lt hlt, decide_eq_true (by omega), cond_true, Nat.add_comm]
  · have hwrap : (i + s % w) % w = i - (w - s % w) := by
      rw [Nat.mod_eq_sub_mod hge, Nat.mod_eq_of_lt (by omega)]
      omega
    simp [hwrap, hi, show ¬i < w - s % w by omega]

/-- Of two complementary amounts, one takes a bit position back to where the other found it. -/
theorem add_mod_add_mod_cancel {s t i : Nat} (h : (s + t) % w = 0) (hi : i < w) : ((i + t) % w + s) % w = i := by
  rw [Nat.mod_add_mod, Nat.add_assoc, Nat.add_comm t, ← Nat.add_mod_mod, h, Nat.add_zero, Nat.mod_eq_of_lt hi]

theorem add_complement_mod_eq_zero (hw : 0 < w) (s : Nat) : (s + (w - s % w) % w) % w = 0 := by
  have hs : s % w < w := Nat.mod_lt _ hw
  rw [Nat.add_mod_mod, ← Nat.mod_add_mod, Nat.add_sub_of_le hs.le, Nat.mod_self]

/-- Words that agree at the positions a rotation by `s` moves the bits to are equal. -/
theorem ext_rotated {x y : Word w} (s : Nat) (h : ∀ i < w, x.getLsbD ((i + s) % w) = y.getLsbD ((i + s) % w)) : x = y := by
  refine BitVec.eq_of_getLsbD_eq fun j hj => ?_
  have hw : 0 < w := by omega
  have := h ((j + (w - s % w) % w) % w) (Nat.mod_lt _ hw)
  rwa [add_mod_add_mod_cancel (add_complement_mod_eq_zero hw s) hj] at this

theorem rotl_rotr (s : Nat) : rotl (rotr x s) s = x :=
  ext_rotated s fun _ hi => by rw [getLsbD_rotl _ hi, getLsbD_rotr _ hi]

theorem rotr_rotl (s : Nat) : rotr (rotl x s) s = x :=
  BitVec.eq_of_getLsbD_eq fun _ hi => by rw [getLsbD_rotr _ hi, getLsbD_rotl _ hi]

/-- A rotation to the right is the one to the left by a complementary amount. -/
theorem rotr_eq_rotl {s t : Nat} (h : (s + t) % w = 0) : rotr x s = rotl x t := by
  refine ext_rotated t fun i hi => ?_
  rw [getLsbD_rotr _ (Nat.mod_lt _ (by omega)), getLsbD_rotl _ hi, add_mod_add_mod_cancel h hi]

end

/-! ### The quadratic rotation and amounts taken from a Word -/

/-- `qrot` is the rotation of the unreduced product (R116). -/
theorem qrot_eq {w : Nat} (x : Word w) : qrot x = rotl (BitVec.ofNat w (x.toNat * (2 * x.toNat + 1))) (lgW w) := by
  rw [qrot, mulMod_ofNat]

theorem lgW_values : lgW 8 = 3 ∧ lgW 16 = 4 ∧ lgW 32 = 5 ∧ lgW 64 = 6 := by decide

theorem two_pow_lgW (W : Width) : 2 ^ lgW W.bits = W.bits := by cases W <;> decide

theorem lgW_le_bits (W : Width) : lgW W.bits ≤ W.bits := by cases W <;> decide

/-- The low lgW bits of a Word are its residue modulo W. -/
theorem toNat_extractLsb'_lgW {W : Width} (a : Word W.bits) :
    (a.extractLsb' 0 (lgW W.bits)).toNat = a.toNat % W.bits := by
  rw [BitVec.extractLsb'_toNat, Nat.shiftRight_zero, two_pow_lgW]

/-- Reducing a sum modulo 2^W does not change its residue modulo W. -/
theorem toNat_addMod_mod_bits {W : Width} (a b : Word W.bits) :
    (addMod a b).toNat % W.bits = (a.toNat + b.toNat) % W.bits := by
  have hdvd : W.bits ∣ 2 ^ W.bits := by
    simpa only [two_pow_lgW] using Nat.pow_dvd_pow 2 (lgW_le_bits W)
  rw [addMod_eq, BitVec.toNat_add, Nat.mod_mod_of_dvd _ hdvd]

end Sys2Proof.Machine

open Sys2Proof Sys2Proof.Machine

/-- Settles O21: each unit is the bit vectors' own operation, and the subtraction also a reduction of integers. -/
theorem modularUnits : Obligations.ModularUnits := by
  refine ⟨fun w a b c => ⟨BitVec.toNat_ofNat _ _, ?_, ?_, ?_, toNat_subMod a b, subMod_eq_addMod_complement a b,
    toNat_subMod_zero_one w, ?_, ?_, BitVec.toNat_ofNat _ _, mulMod_eq_ofInt_toInt a b, fun i => BitVec.getLsbD_xor,
    BitVec.xor_self, ?_⟩, by decide⟩
  · rw [addMod_eq, BitVec.add_zero]
  · rw [addMod_eq, addMod_eq, BitVec.add_comm]
  · simp only [addMod_eq, BitVec.add_assoc]
  · rw [subMod_eq, BitVec.sub_self]
  · rw [addMod_eq, subMod_eq, BitVec.add_sub_cancel]
  · rw [xorWord, xorWord, BitVec.xor_assoc, BitVec.xor_self, BitVec.xor_zero]

/-- Settles O22: the rotations undo each other because one takes each bit from where the other moves it. -/
theorem rotationLaws : Obligations.RotationLaws := fun w x s =>
  ⟨rotl_of_mod_eq_zero x (Nat.zero_mod w), rotl_of_mod_eq_zero x (Nat.mod_self w), rotl_rotr x s, rotr_rotl x s,
    rotl_congr x (Nat.mod_mod s w).symm⟩

/-- Settles O23: the bit positions, and complementary amounts for the corner cases. -/
theorem rotationsMoveBits : Obligations.RotationsMoveBits := by
  refine ⟨fun w x s i hi => ⟨getLsbD_rotl x hi s, getLsbD_rotr x hi s⟩, fun w x s hw => ⟨?_, ?_, ?_, fun k => ?_⟩, by decide⟩
  · exact (rotr_eq_rotl x (by rw [Nat.add_sub_of_le hw, Nat.mod_self])).symm
  · exact rotr_eq_rotl x (by rw [Nat.sub_add_cancel hw, Nat.mod_self])
  · exact rotr_eq_rotl x (add_complement_mod_eq_zero hw s)
  · have hk : k * w % w = 0 := Nat.mul_mod_left k w
    exact ⟨rotl_of_mod_eq_zero x hk, rotr_of_mod_eq_zero x hk⟩

/-- Settles O24: the product of the unreduced factors, rotated by the value of lgW at each width. -/
theorem quadraticRotation : Obligations.QuadraticRotation := by
  obtain ⟨h8, h16, h32, h64⟩ := lgW_values
  refine ⟨fun x => ?_, fun x => ?_, fun x => ?_, fun x => ?_, by decide⟩
  · rw [qrot_eq, h8]
  · rw [qrot_eq, h16]
  · rw [qrot_eq, h32]
  · rw [qrot_eq, h64]

/-- Settles O25: W is 2^lgW, so the low lgW bits are the residue modulo W, which is all a rotation uses. -/
theorem rotationAmountIsLowBits : Obligations.RotationAmountIsLowBits := by
  intro W x a b
  simp only [toNat_extractLsb'_lgW]
  have hmod : a.toNat % W.bits = a.toNat % W.bits % W.bits := (Nat.mod_mod _ _).symm
  exact ⟨rotl_congr x hmod, rotr_congr x hmod, (toNat_addMod_mod_bits a b).symm⟩
end

section
/-! The key schedule (41_key_schedule.md R130 to R136): the initial table, the mixing loop, the packing of the key, and what
a legal SCHEDULE leaves from its issue to its completion. -/

namespace Sys2Proof.Machine

open Sys2Proof

/-! ### The initial table (R133) -/

section
variable {w : Nat}

/-- The closed form of R133, from any first entry. -/
theorem entry_initFrom (q x : Word w) {n i : Nat} (hi : i < n) :
    entry (initFrom q x n) i = BitVec.ofNat w (x.toNat + i * q.toNat) := by
  induction n generalizing x i with
  | zero => omega
  | succ n ih =>
    cases i with
    | zero => simp [initFrom, entry]
    | succ i =>
      have hsum : (addMod x q).toNat = (x.toNat + q.toNat) % 2 ^ w := BitVec.toNat_ofNat _ _
      calc entry (initFrom q x (n + 1)) (i + 1) = entry (initFrom q (addMod x q) n) i := rfl
        _ = BitVec.ofNat w ((x.toNat + q.toNat) % 2 ^ w + i * q.toNat) := by rw [ih _ (by omega), hsum]
        _ = BitVec.ofNat w (x.toNat + (i + 1) * q.toNat) := by
          apply BitVec.eq_of_toNat_eq
          rw [BitVec.toNat_ofNat, BitVec.toNat_ofNat, Nat.mod_add_mod]
          congr 1
          ring

theorem entry_initTable (p q : Word w) {T i : Nat} (hi : i < T) :
    entry (initTable p q T) i = BitVec.ofNat w (p.toNat + i * q.toNat) :=
  entry_initFrom q p hi

/-! ### The mixing loop (R134) -/

theorem mixLoop_eq_iterate (T c n : Nat) (x : Mix w) : mixLoop T c n x = (mixStep T c)^[n] x := by
  induction n generalizing x with
  | zero => rfl
  | succ n ih => rw [mixLoop, ih, Function.iterate_succ_apply]

/-- The first line of an iteration, with indices in range. -/
theorem mixStep_KA {T c : Nat} {x : Mix w} (hS : x.KI < x.S.length) :
    (mixStep T c x).KA = rotl (x.S[x.KI] + x.KA + x.KB) 3 := by
  simp [mixStep, addMod_eq, entry, hS]

/-- The second line of an iteration: the new KA and the old KB. -/
theorem mixStep_KB {T c : Nat} {x : Mix w} (hL : x.KJ < x.L.length) : (mixStep T c x).KB =
    rotl (x.L[x.KJ] + (mixStep T c x).KA + x.KB) ((mixStep T c x).KA + x.KB).toNat := by
  simp [mixStep, addMod_eq, entry, hL]

/-- An index that steps modulo its bound, `n` steps on. -/
theorem mod_succ_add (k n m : Nat) : ((k + 1) % m + n) % m = (k + (n + 1)) % m := by
  rw [Nat.mod_add_mod, Nat.add_assoc, Nat.add_comm 1 n]

theorem mixLoop_indices {T c : Nat} (n : Nat) {x : Mix w} (hI : x.KI < T) (hJ : x.KJ < c) :
    (mixLoop T c n x).KI = (x.KI + n) % T ∧ (mixLoop T c n x).KJ = (x.KJ + n) % c := by
  induction n generalizing x with
  | zero => exact ⟨(Nat.mod_eq_of_lt hI).symm, (Nat.mod_eq_of_lt hJ).symm⟩
  | succ n ih =>
    obtain ⟨hKI, hKJ⟩ := ih (x := mixStep T c x) (Nat.mod_lt _ (by omega)) (Nat.mod_lt _ (by omega))
    exact ⟨hKI.trans (mod_succ_add _ _ _), hKJ.trans (mod_succ_add _ _ _)⟩

end

/-! ### The packing of the key (R132) -/

/-- Byte `k` of key Word `j`. -/
theorem packWord_byte (s : State) (b j : Nat) {k : Nat} (hk : k < s.build.u) :
    (s.packWord b j).extractLsb' (8 * k) 8 = s.packedByte b (j * s.build.u + k) := by
  have hu := u_mul s.build
  rw [State.packWord, extract_leNat _ _ (by omega)]
  simp [List.getD, hk]

theorem entry_packKey (s : State) (b : Nat) {j : Nat} (hj : j < s.build.keyWords b) :
    entry (s.packKey b) j = s.packWord b j := by
  simp [entry, State.packKey, hj]

/-- The round-key table, as stored, depends on the build, R, the number of key Words and the padded key bytes only. -/
theorem map_store_roundKeyTable_congr {s t : State} {m n : Nat} (hbuild : s.build = t.build)
    (hwords : s.build.keyWords m = s.build.keyWords n) (hbytes : ∀ k, s.packedByte m k = t.packedByte n k) (R : Nat) :
    (roundKeyTable s.build.W R (s.build.keyWords m) (s.packKey m)).map store =
      (roundKeyTable t.build.W R (t.build.keyWords n) (t.packKey n)).map store := by
  have hkey : s.packedByte m = t.packedByte n := funext hbytes
  unfold State.packKey State.packWord
  rw [hwords, hkey, hbuild]

/-- Bytes of KEYBUF at index ≥ b do not reach the packing. -/
theorem packedByte_congr {s t : State} {b : Nat} (h : ∀ k, k < b → s.keyByte k = t.keyByte k) (k : Nat) :
    s.packedByte b k = t.packedByte b k :=
  if_ctx_congr Iff.rfl (h k) fun _ => rfl

/-- A 0x00 byte at the key's end is packed as the padding is (R136). -/
theorem packedByte_eq_of_trailing_zero {s t : State} {m n : Nat} (hmn : m ≤ n)
    (hkey : ∀ k, k < m → s.keyByte k = t.keyByte k) (hzero : ∀ k, m ≤ k → k < n → t.keyByte k = 0x00#8) (k : Nat) :
    s.packedByte m k = t.packedByte n k := by
  unfold State.packedByte
  by_cases hm : k < m
  · rw [if_pos hm, if_pos (by omega), hkey k hm]
  · rw [if_neg hm]
    split_ifs with hn
    · exact (hzero k (by omega) hn).symm
    · rfl

/-! ### A legal SCHEDULE, from issue to completion (R130, R135) -/

section
variable {s : State} (hidle : s.busy = false) (hb : 1 ≤ s.keylen.toNat) (hmax : s.keylen.toNat ≤ s.build.bMax)
  (hR : s.rounds.toNat ≤ s.build.rMax.toNat)

include hidle hb hmax hR in
theorem exec_schedule_of_legal : exec .schedule s = .next (s.started .schedule) := by
  have hissue : exec .schedule s = .next (s.issueEffects 0x1#4).schedulePart := congrArg _ (issue_of_idle hidle _ _)
  rw [hissue]
  rcases schedulePart_cases (s.issueEffects 0x1#4) with ⟨h, -⟩ | ⟨h, -⟩ | ⟨h, -⟩ | ⟨-, -, -, h⟩
  · exact absurd h (Nat.ne_of_gt hb)
  · exact absurd hmax (Nat.not_le.2 h)
  · exact absurd hR (Nat.not_le.2 h)
  · rw [h]; rfl

include hidle hb hmax hR in
theorem runCommand_schedule_of_legal : runCommand .schedule s = (s.started .schedule).complete := by
  rw [runCommand, exec_schedule_of_legal hidle hb hmax hR]

end

/-- L[0 .. c−1] after the issue. -/
theorem take_L_started (s : State) : (s.started .schedule).L.take (s.build.keyWords s.keylen.toNat) =
    (s.packKey s.keylen.toNat).map store :=
  List.take_left' (by rw [List.length_map, length_packKey]; rfl)

/-- The table in flight is that of the key packed at the issue. -/
theorem map_store_scheduledTable_started (s : State) : (s.started .schedule).scheduledTable.map store =
    (roundKeyTable s.build.W s.rounds.toNat (s.build.keyWords s.keylen.toNat) (s.packKey s.keylen.toNat)).map store := by
  rw [← map_load_store (bits_le s.build) (s.packKey s.keylen.toNat), ← take_L_started]
  exact map_store_scheduledTable_eq _

/-- S[0 .. 2R+3] after the completion. -/
theorem take_S_complete_started (s : State) : (s.started .schedule).complete.S.take (tableLen s.rounds.toNat) =
    (roundKeyTable s.build.W s.rounds.toNat (s.build.keyWords s.keylen.toNat) (s.packKey s.keylen.toNat)).map store := by
  rw [← map_store_scheduledTable_started]
  exact List.take_left' (by rw [List.length_map, length_scheduledTable]; rfl)

/-- A command other than SCHEDULE leaves S as it is. -/
theorem runCommand_S {i : Instr} (hi : i ≠ .schedule) {s : State} (hidle : s.busy = false) :
    (runCommand i s).S = s.S := by
  obtain ⟨u, hu⟩ : ∃ u, exec i s = .next u := by cases i <;> exact ⟨_, rfl⟩
  have hrun : runCommand i s = u.complete := by rw [runCommand, hu]
  rw [hrun]
  rcases exec_keeps_or_starts hu with hkeep | ⟨-, rfl⟩
  · rw [complete_idle (hkeep.phase.trans ((busy_eq_false s).1 hidle)), hkeep.S]
  · cases i with
    | schedule => exact absurd rfl hi
    | encrypt => exact (complete_S_context (by simp [State.started])).1
    | decrypt => exact (complete_S_context (by simp [State.started])).1

end Sys2Proof.Machine

open Sys2Proof Sys2Proof.Machine

/-- Settles O11: the issue packs the key into L, the completion writes the table mixed from it, and neither writes anything
of the frame. -/
theorem schedulingBuildsTheContext : Obligations.SchedulingBuildsTheContext := by
  intro s hidle hb hmax hR
  have htable := congrArg (List.map (load s.build.bits)) (take_S_complete_started s)
  rw [map_load_store (bits_le s.build)] at htable
  refine ⟨_, exec_schedule_of_legal hidle hb hmax hR, rfl, ctxWord_of_no_context rfl, rfl, htable, ?_⟩
  rw [complete_sched (s := s.started .schedule) rfl]
  simp [State.started]

/-- Settles O15: the table is a function of the build, R and the padded key, with 2R+4 entries by construction. -/
theorem schedulingIsDeterministic : Obligations.SchedulingIsDeterministic := by
  refine ⟨fun s hidle => ⟨runCommand_S (by decide) hidle, runCommand_S (by decide) hidle⟩, ?_⟩
  intro s t hs ht hbuild hrounds hkeylen hb hmax hR hkey
  rw [runCommand_schedule_of_legal hs hb hmax hR,
    runCommand_schedule_of_legal ht (hkeylen ▸ hb) (hbuild ▸ hkeylen ▸ hmax) (hbuild ▸ hrounds ▸ hR)]
  have hS := take_S_complete_started s
  have hT := take_S_complete_started t
  rw [← hrounds, ← hkeylen] at hT
  exact ⟨hS.trans ((map_store_roundKeyTable_congr hbuild rfl (packedByte_congr hkey) _).trans hT.symm),
    (congrArg List.length hS).trans (by simp [tableLen])⟩

/-- Settles O16: the two keys have the same Words, so the same padded bytes give the same table. -/
theorem trailingZeroBytesDoNotMatter : Obligations.TrailingZeroBytesDoNotMatter := by
  intro s t hs ht hbuild hrounds hR hb hle hmax hwords hkey hzero
  rw [runCommand_schedule_of_legal hs hb (hle.trans hmax) hR,
    runCommand_schedule_of_legal ht (hb.trans hle) (hbuild ▸ hmax) (hbuild ▸ hrounds ▸ hR)]
  have hT := take_S_complete_started t
  rw [← hrounds] at hT
  exact (take_S_complete_started s).trans ((map_store_roundKeyTable_congr hbuild hwords
    (packedByte_eq_of_trailing_zero hle hkey hzero) _).trans hT.symm)

/-- Settles O17: the loop is the iterate of its step, by induction, and the indices follow the step's. -/
theorem keyMixingLoop : Obligations.KeyMixingLoop :=
  ⟨fun _ T c _ _ => mixLoop_eq_iterate T c _ _,
    fun _ _ _ _ hS hL => ⟨mixStep_KA hS, rfl, mixStep_KB hL, rfl, rfl, rfl⟩,
    fun _ _ _ n _ hI hJ => mixLoop_indices n hI hJ⟩

/-- Settles O18: by induction on the number of entries; the examples follow from the closed form. -/
theorem initialTableClosedForm : Obligations.InitialTableClosedForm := by
  refine ⟨fun w T p q => ⟨length_initFrom q p T, fun i hi => entry_initTable p q hi⟩, by decide, ?_⟩
  exact (entry_initTable _ _ (by decide)).trans (by decide)

/-- Settles O20: each Word's bytes are the padded key bytes, and a legal SCHEDULE's issue captures the Words. -/
theorem keyPackingIsLittleEndian : Obligations.KeyPackingIsLittleEndian := by
  refine ⟨fun s b => ⟨length_packKey s b, fun j k hj hk => ?_⟩, fun s hidle hb hmax hR => ?_⟩
  · rw [entry_packKey s b (by simpa using hj), packWord_byte s b j hk]
    rfl
  · refine ⟨_, exec_schedule_of_legal hidle hb hmax hR, ?_⟩
    rw [length_packKey, take_L_started, map_load_store (bits_le s.build)]
end

section
/-! The magic constants (41_key_schedule.md R131; 90_conflicts.md C1). At W = 64 the factors of 2^W are needed to 20 decimal
places for P_W and to 22 for Q_W, which is 0.95 away from its real number there. -/

namespace Sys2Proof.Machine

open Sys2Proof

/-- An integer nearest to the multiple of an approximation is nearest to the multiple of the number. -/
theorem abs_sub_mul_lt_one {x r ε n N : ℝ} (hx : |x - r| ≤ ε) (hN : 0 ≤ N)
    (hn : |n - r * N| + ε * N < 1) : |n - x * N| < 1 :=
  calc |n - x * N| = |(n - r * N) - (x - r) * N| := by ring_nf
    _ ≤ |n - r * N| + |(x - r) * N| := abs_sub _ _
    _ = |n - r * N| + |x - r| * N := by rw [abs_mul, abs_of_nonneg hN]
    _ ≤ |n - r * N| + ε * N := by gcongr
    _ < 1 := hn

/-- e − 2, which P_W scales. -/
theorem exp_one_sub_two_near : |(Real.exp 1 - 2) - (363916618873 / 133877442384 - 2)| ≤ 1 / 10 ^ 20 := by
  simpa using Real.exp_one_near_20

/-- φ − 1, which Q_W scales: half of √5 − 1. -/
theorem golden_sub_one_near : |((1 + Real.sqrt 5) / 2 - 1) - 0.618033988749894848204587| ≤ 1 / 10 ^ 22 := by
  have hlo : (2.236067977499789696409173 : ℝ) ≤ Real.sqrt 5 := Real.le_sqrt_of_sq_le (by norm_num)
  have hhi : Real.sqrt 5 ≤ 2.236067977499789696409175 := Real.sqrt_le_iff.2 (by norm_num)
  rw [abs_le]
  constructor <;> linarith

theorem toNat_magicP (W : Width) : (magicP W).toNat = magicPNat W := by cases W <;> rfl

theorem toNat_magicQ (W : Width) : (magicQ W).toNat = magicQNat W := by cases W <;> rfl

theorem magicP_near (W : Width) : |((magicP W).toNat : ℝ) - (Real.exp 1 - 2) * 2 ^ W.bits| < 1 := by
  refine abs_sub_mul_lt_one exp_one_sub_two_near (by positivity) ?_
  rw [toNat_magicP]
  cases W <;> norm_num [magicPNat, Width.bits, abs_lt]

theorem magicQ_near (W : Width) : |((magicQ W).toNat : ℝ) - ((1 + Real.sqrt 5) / 2 - 1) * 2 ^ W.bits| < 1 := by
  refine abs_sub_mul_lt_one golden_sub_one_near (by positivity) ?_
  rw [toNat_magicQ]
  cases W <;> norm_num [magicQNat, Width.bits, abs_lt]

end Sys2Proof.Machine

open Sys2Proof Sys2Proof.Machine

/-- Settles O19: from approximations of e − 2 and φ − 1; that the constants are odd is evaluated. -/
theorem magicConstantsAreNearestOdd : Obligations.MagicConstantsAreNearestOdd := by
  have hodd : ∀ W : Width, Odd (magicPNat W) ∧ Odd (magicQNat W) := by intro W; cases W <;> decide
  refine ⟨fun W => ⟨?_, magicP_near W, ?_, magicQ_near W⟩, ?_⟩
  · rw [toNat_magicP]; exact (hodd W).1
  · rw [toNat_magicQ]; exact (hodd W).2
  · exact ⟨rfl, rfl, rfl, rfl, rfl, rfl, rfl, rfl⟩
end

section
/-! The cipher as a function (42_encrypt.md R151): the bit vectors' own operations in a fold over the rounds, and the table's
entries it reads. -/

namespace Sys2Proof.Machine

open Sys2Proof

section
variable {w : Nat}

/-- `qrot` with the bit vectors' own operations: reducing 2x+1 modulo 2^W does not change the product. -/
theorem qrot_eq_rotateLeft (x : Word w) : qrot x = (x * (2#w * x + 1#w)).rotateLeft (lgW w) := by
  have hfactor : BitVec.ofNat w (2 * x.toNat + 1) = 2#w * x + 1#w := by
    rw [BitVec.ofNat_add, BitVec.ofNat_mul, BitVec.ofNat_toNat, BitVec.setWidth_eq]
  rw [qrot, mulMod_eq, rotl_eq_rotateLeft, hfactor]

/-- A round of encryption with the bit vectors' own operations. -/
theorem encRound_eq (S : List (Word w)) (i : Nat) (x : Block w) : encRound S i x =
    let t := (x.B * (2#w * x.B + 1#w)).rotateLeft (lgW w)
    let u := (x.D * (2#w * x.D + 1#w)).rotateLeft (lgW w)
    ⟨x.B, (x.C ^^^ u).rotateLeft t.toNat + S.getD (2 * i + 1) 0#w, x.D,
      (x.A ^^^ t).rotateLeft u.toNat + S.getD (2 * i) 0#w⟩ := by
  simp only [encRound, qrot_eq_rotateLeft, addMod_eq, rotl_eq_rotateLeft, xorWord, entry]

/-- Rounds 1 to `n`, ascending, are a left fold. -/
theorem encRounds_eq_foldl (S : List (Word w)) (n : Nat) (x : Block w) :
    encRounds S n x = (List.range n).foldl (fun z k => encRound S (k + 1) z) x := by
  induction n with
  | zero => rfl
  | succ n ih => rw [encRounds, ih, List.range_succ, List.foldl_concat]

end

end Sys2Proof.Machine

open Sys2Proof Sys2Proof.Machine

/-- Settles O29: each round and each whitening reads entries below 2R+4. -/
theorem cipherReadsOnlyTheContextTable : Obligations.CipherReadsOnlyTheContextTable :=
  fun _ _ _ _ x h => ⟨encryptBlock_congr h x, decryptBlock_congr h x⟩

/-- Settles O26: the rounds are a fold by induction, and each unit of a round is the bit vectors' own operation. -/
theorem encryptionFunction : Obligations.EncryptionFunction := by
  refine ⟨lgW_values, fun W S R x _ => ?_⟩
  simp only [encryptBlock, encRounds_eq_foldl, encRound_eq, addMod_eq, entry]
end

section
/-! ENCRYPT and DECRYPT from issue to completion (42_encrypt.md R150, R152; 43_decrypt.md R165): the result, and what the two
commands leave alone. -/

namespace Sys2Proof.Machine

open Sys2Proof

/-- The function a block command computes. -/
def blockFunction (i : Instr) {w : Nat} : List (Word w) → Nat → Block w → Block w :=
  if i = .encrypt then encryptBlock else decryptBlock

/-- The phase a block command enters. -/
def blockPhase (i : Instr) : Phase := if i = .encrypt then .enc else .dec

theorem blockPhase_ne_idle (i : Instr) : blockPhase i ≠ .idle := by
  unfold blockPhase
  split_ifs <;> decide

/-- The bytes a block command started now writes to DOUTBUF. -/
def State.blockResult (s : State) (i : Instr) : List Byte :=
  bytesOfBlock (blockFunction i s.table s.ctxR.toNat (blockOfBytes s.build.bits s.dinBlock))

theorem blockFunction_congr (i : Instr) {w : Nat} {S S' : List (Word w)} {R : Nat}
    (h : ∀ k, k < tableLen R → entry S k = entry S' k) (x : Block w) :
    blockFunction i S R x = blockFunction i S' R x := by
  unfold blockFunction
  split_ifs
  · exact encryptBlock_congr h x
  · exact decryptBlock_congr h x

theorem length_blockResult (s : State) (i : Instr) : (s.blockResult i).length = s.build.blkBytes :=
  length_bytesOfBlock _

/-- The result depends on the build, the block and the context only (R152). -/
theorem blockResult_congr {s t : State} (i : Instr) (hbuild : s.build = t.build) (hR : s.ctxR = t.ctxR)
    (hS : ∀ k, k < tableLen s.ctxR.toNat → s.S.getD k 0 = t.S.getD k 0) (hdin : s.dinBlock = t.dinBlock) :
    s.blockResult i = t.blockResult i := by
  unfold State.blockResult State.table
  rw [← hbuild, ← hR, ← hdin]
  refine congrArg bytesOfBlock (blockFunction_congr i (fun k hk => ?_) _)
  rw [entry_map_load, entry_map_load, hS k hk]

/-- What a block command leaves alone: all its inputs, and every byte outside the DOUT window. -/
structure KeepsInputs (s u : State) : Prop extends KeepsContext s u where
  build : u.build = s.build
  L : u.L = s.L
  rounds : u.rounds = s.rounds
  keylen : u.keylen = s.keylen
  mem_wf : Memory.wf s.mem = true → Memory.wf u.mem = true
  read : ∀ a, a < doutBase ∨ doutBase + s.build.blkBytes ≤ a → Memory.read u.mem a = Memory.read s.mem a

namespace KeepsInputs

variable {s u : State}

theorem dinByte (h : KeepsInputs s u) {k : Nat} (hk : k < s.build.blkBytes) : u.dinByte k = s.dinByte k := by
  have hblk := (blk_bounds s.build).1
  have hgap : doutBase = dinBase + 32 := rfl
  exact h.read _ (.inl (by omega))

theorem keyByte (h : KeepsInputs s u) (k : Nat) : u.keyByte k = s.keyByte k := by
  have hblk := (blk_bounds s.build).1
  have hgap : keyBase = doutBase + 160 := rfl
  exact h.read _ (.inr (by omega))

theorem dinBlock (h : KeepsInputs s u) : u.dinBlock = s.dinBlock := by
  rw [dinBlock_eq, dinBlock_eq, h.build]
  exact List.map_congr_left fun k hk => h.dinByte (List.mem_range.1 hk)

theorem blockResult (h : KeepsInputs s u) (i : Instr) : u.blockResult i = s.blockResult i :=
  blockResult_congr i h.build h.ctxR (fun k _ => by rw [h.S]) h.dinBlock

end KeepsInputs

section
variable {i : Instr} (hi : i = .encrypt ∨ i = .decrypt) {s : State}

include hi

theorem exec_block (s : State) : exec i s = .next (s.issue (opcode i) (State.blockPart (blockPhase i))) := by
  rcases hi with rfl | rfl <;> rfl

theorem started_block (s : State) : s.started i = (s.issueEffects (opcode i)).startBlock (blockPhase i) := by
  rcases hi with rfl | rfl <;> rfl

/-- The completion of a block command writes the result for the block and the context at its start. -/
theorem complete_started_block (s : State) :
    (s.started i).complete = (s.started i).completeBlock (s.blockResult i) := by
  rcases hi with rfl | rfl
  · exact complete_enc rfl
  · exact complete_dec rfl

/-- The result is in DOUTBUF after the completion. -/
theorem doutBlock_complete_started (hwf : Memory.wf s.mem = true) :
    (s.started i).complete.doutBlock = s.blockResult i := by
  rw [complete_started_block hi, started_block hi]
  exact doutBlock_completeBlock hwf (length_blockResult s i)

theorem keepsInputs_complete_started (hidle : s.busy = false) : KeepsInputs s (s.started i).complete := by
  rw [complete_started_block hi, started_block hi]
  exact
  { phase := ((busy_eq_false s).1 hidle).symm
    keyValid := rfl
    ctxR := rfl
    ctxB := rfl
    S := rfl
    build := rfl
    L := rfl
    rounds := rfl
    keylen := rfl
    mem_wf := fun hwf => Memory.wf_writeBytes hwf _ _
    read := fun a ha => Memory.read_writeBytes_out _ _ _ (by rwa [length_blockResult]) }

/-- A block command issued while not BUSY: NoKey without a context, the start with one. -/
theorem exec_block_cases (hidle : s.busy = false) :
    (s.keyValid = false ∧ exec i s = .next ((s.issueEffects (opcode i)).raiseError .noKey)) ∨
    (s.keyValid = true ∧ exec i s = .next (s.started i)) := by
  rw [exec_block hi, issue_of_idle hidle, started_block hi]
  exact (blockPart_cases (blockPhase i) (s.issueEffects (opcode i))).imp (.imp_right (congrArg _)) (.imp_right (congrArg _))

theorem exec_block_of_keyValid (hidle : s.busy = false) (hkey : s.keyValid = true) : exec i s = .next (s.started i) := by
  rcases exec_block_cases hi hidle with ⟨hnone, -⟩ | ⟨-, hexec⟩
  · simp [hkey] at hnone
  · exact hexec

theorem runCommand_block_of_keyValid (hidle : s.busy = false) (hkey : s.keyValid = true) :
    runCommand i s = (s.started i).complete := by
  rw [runCommand, exec_block_of_keyValid hi hidle hkey]

/-- DOUTBUF after a block command. -/
theorem doutBlock_runCommand (hwf : Memory.wf s.mem = true) (hidle : s.busy = false) (hkey : s.keyValid = true) :
    (runCommand i s).doutBlock = s.blockResult i := by
  rw [runCommand_block_of_keyValid hi hidle hkey, doutBlock_complete_started hi hwf]

/-- A block command keeps its inputs, with a context or without one. -/
theorem keepsInputs_runCommand (hidle : s.busy = false) : KeepsInputs s (runCommand i s) := by
  rcases exec_block_cases hi hidle with ⟨-, hexec⟩ | ⟨hkey, -⟩
  · have hrun : runCommand i s = (s.issueEffects (opcode i)).raiseError .noKey := by
      rw [runCommand, hexec]
      exact complete_idle ((busy_eq_false s).1 hidle)
    rw [hrun]
    exact ⟨⟨rfl, rfl, rfl, rfl, rfl⟩, rfl, rfl, rfl, rfl, id, fun _ _ => rfl⟩
  · rw [runCommand_block_of_keyValid hi hidle hkey]
    exact keepsInputs_complete_started hi hidle

end

end Sys2Proof.Machine

open Sys2Proof Sys2Proof.Machine

/-- Settles O12: the start captures the block, the completion writes its result to DOUTBUF, and neither writes anything of
the frame. -/
theorem blockCommandsWriteTheResult : Obligations.BlockCommandsWriteTheResult := by
  intro s hwf hidle hkey i hi
  have hframe := keepsInputs_complete_started hi hidle
  have hdout := doutBlock_complete_started hi hwf
  refine ⟨_, exec_block_of_keyValid hi hidle hkey, ?_, ?_, hdout, hframe.read, ?_⟩
  · simp [started_block hi, blockPhase_ne_idle]
  · simp [started_block hi]
  · rw [complete_started_block hi, started_block hi]
    simp [hkey]

/-- Settles O14: the result is a function of the build, the block and the context, all of which a block command keeps. -/
theorem blockCommandsAreIndependent : Obligations.BlockCommandsAreIndependent := by
  refine ⟨fun s t i hi hs ht hsi hti hsk htk hbuild hR hS hdin => ?_, fun s i j hi hj hwf hidle hkey => ?_,
    fun s hidle => ?_⟩
  · rw [doutBlock_runCommand hi hs hsi hsk, doutBlock_runCommand hi ht hti htk]
    exact blockResult_congr i hbuild hR hS hdin
  · have hkeep := keepsInputs_runCommand hj hidle
    have hidle' : (runCommand j s).busy = false := by rwa [busy_eq_false, hkeep.phase, ← busy_eq_false]
    rw [doutBlock_runCommand hi (hkeep.mem_wf hwf) hidle' (hkeep.keyValid.trans hkey),
      doutBlock_runCommand hi hwf hidle hkey, hkeep.blockResult]
  · have hkeep := keepsInputs_runCommand (.inl rfl) hidle
    exact ⟨hkeep.S, hkeep.L, hkeep.keyValid, hkeep.ctxR, hkeep.ctxB,
      by simp only [State.configWord, hkeep.rounds, hkeep.keylen], fun k hk => hkeep.dinByte hk, hkeep.keyByte⟩
end

section
/-! Decryption as a function and the round-trip law (43_decrypt.md R166, R167): the bit vectors' own operations in a fold over
the rounds, each step of one direction undone by the matching step of the other, and the two commands run one after the
other. -/

namespace Sys2Proof.Machine

open Sys2Proof

/-! ### The decryption function (R166) -/

section
variable {w : Nat} (S : List (Word w))

/-- A round of decryption with the bit vectors' own operations. -/
theorem decRound_eq (i : Nat) (x : Block w) : decRound S i x =
    let u := (x.C * (2#w * x.C + 1#w)).rotateLeft (lgW w)
    let t := (x.A * (2#w * x.A + 1#w)).rotateLeft (lgW w)
    ⟨(x.D - S.getD (2 * i) 0#w).rotateRight u.toNat ^^^ t, x.A,
      (x.B - S.getD (2 * i + 1) 0#w).rotateRight t.toNat ^^^ u, x.C⟩ := by
  simp only [decRound, qrot_eq_rotateLeft, subMod_eq, rotr_eq_rotateRight, xorWord, entry]

/-- Rounds `n` to 1, descending, are a right fold. -/
theorem decRounds_eq_foldr (n : Nat) (x : Block w) :
    decRounds S n x = (List.range n).foldr (fun k z => decRound S (k + 1) z) x := by
  induction n generalizing x with
  | zero => rfl
  | succ n ih => rw [decRounds, ih, List.range_succ, List.foldr_concat]

/-! ### Each step undone by its counterpart (R167) -/

theorem subMod_addMod (a b : Word w) : subMod (addMod a b) b = a := by
  rw [subMod_eq, addMod_eq, BitVec.add_sub_cancel]

theorem addMod_subMod (a b : Word w) : addMod (subMod a b) b = a := by
  rw [subMod_eq, addMod_eq, BitVec.sub_add_cancel]

theorem xorWord_xorWord (a b : Word w) : xorWord (xorWord a b) b = a := by
  rw [xorWord, xorWord, BitVec.xor_assoc, BitVec.xor_self, BitVec.xor_zero]

/-- A round of decryption takes its t and u from the B and D its round of encryption started from. -/
theorem decRound_encRound (i : Nat) (x : Block w) : decRound S i (encRound S i x) = x := by
  simp only [decRound, encRound, subMod_addMod, rotr_rotl, xorWord_xorWord]

theorem encRound_decRound (i : Nat) (x : Block w) : encRound S i (decRound S i x) = x := by
  simp only [decRound, encRound, xorWord_xorWord, rotl_rotr, addMod_subMod]

theorem decRounds_encRounds (n : Nat) (x : Block w) : decRounds S n (encRounds S n x) = x := by
  induction n with
  | zero => rfl
  | succ n ih => rw [decRounds, encRounds, decRound_encRound, ih]

theorem encRounds_decRounds (n : Nat) (x : Block w) : encRounds S n (decRounds S n x) = x := by
  induction n generalizing x with
  | zero => rfl
  | succ n ih => rw [decRounds, encRounds, ih, encRound_decRound]

/-- A block is its four Words. -/
theorem Block.eta (x : Block w) : (⟨x.A, x.B, x.C, x.D⟩ : Block w) = x := rfl

theorem decryptBlock_encryptBlock (R : Nat) (x : Block w) : decryptBlock S R (encryptBlock S R x) = x := by
  simp only [decryptBlock, encryptBlock, subMod_addMod, Block.eta, decRounds_encRounds]

theorem encryptBlock_decryptBlock (R : Nat) (x : Block w) : encryptBlock S R (decryptBlock S R x) = x := by
  simp only [decryptBlock, encryptBlock, addMod_subMod, Block.eta, encRounds_decRounds]

end

/-! ### ENCRYPT, the copy, DECRYPT (R167) -/

/-- DOUTBUF copied into DINBUF. -/
def State.copyDoutToDin (s : State) : State := { s with mem := Memory.writeBytes s.mem dinBase s.doutBlock }

theorem dinBlock_copyDoutToDin {s : State} (hwf : Memory.wf s.mem = true) : s.copyDoutToDin.dinBlock = s.doutBlock := by
  have hread := Memory.readBytes_writeBytes hwf dinBase s.doutBlock
  rwa [length_doutBlock] at hread

/-- DECRYPT, started on the bytes ENCRYPT writes for another state of the same build and context, computes that state's
block. -/
theorem blockResult_decrypt_of_encrypt {s t : State} (hbuild : t.build = s.build) (hR : t.ctxR = s.ctxR) (hS : t.S = s.S)
    (hdin : t.dinBlock = s.blockResult .encrypt) : t.blockResult .decrypt = s.dinBlock := by
  unfold State.blockResult State.table
  rw [hbuild, hR, hS, hdin]
  calc bytesOfBlock (decryptBlock s.table s.ctxR.toNat (blockOfBytes s.build.bits (bytesOfBlock
        (encryptBlock s.table s.ctxR.toNat (blockOfBytes s.build.bits s.dinBlock)))))
      = bytesOfBlock (blockOfBytes s.build.bits s.dinBlock) := by
        rw [blockOfBytes_bytesOfBlock (eight_dvd_bits s.build.W), decryptBlock_encryptBlock]
    _ = s.dinBlock := bytesOfBlock_blockOfBytes (length_dinBlock s)

end Sys2Proof.Machine

open Sys2Proof Sys2Proof.Machine

/-- Settles O27: the rounds are a fold by induction, and each unit of a round is the bit vectors' own operation. -/
theorem decryptionFunction : Obligations.DecryptionFunction := by
  intro W S R x _
  simp only [decryptBlock, decRounds_eq_foldr, decRound_eq, subMod_eq, entry]

/-- Settles O28: each step of a round is undone by its counterpart; ENCRYPT keeps the context DECRYPT then uses, and the copy
hands it the result. -/
theorem roundTripLaw : Obligations.RoundTripLaw := by
  refine ⟨fun w S R x => ⟨decryptBlock_encryptBlock S R x, encryptBlock_decryptBlock S R x⟩, fun s hwf hidle hkey => ?_⟩
  have hE : Instr.encrypt = .encrypt ∨ Instr.encrypt = .decrypt := .inl rfl
  have hD : Instr.decrypt = .encrypt ∨ Instr.decrypt = .decrypt := .inr rfl
  have hkeep := keepsInputs_complete_started hE hidle
  have hdout := doutBlock_complete_started hE hwf
  set v := (s.started .encrypt).complete
  have hidle' : v.copyDoutToDin.busy = false := complete_busy _
  have hwf' : Memory.wf v.copyDoutToDin.mem = true := Memory.wf_writeBytes (hkeep.mem_wf hwf) _ _
  have hdin : v.copyDoutToDin.dinBlock = v.doutBlock := dinBlock_copyDoutToDin (hkeep.mem_wf hwf)
  refine ⟨_, _, exec_block_of_keyValid hE hidle hkey,
    exec_block_of_keyValid hD hidle' (hkeep.keyValid.trans hkey), ?_, ?_⟩
  · exact (doutBlock_complete_started hD hwf').trans
      (blockResult_decrypt_of_encrypt hkeep.build hkeep.ctxR hkeep.S (hdin.trans hdout))
  · exact (keepsInputs_complete_started hD hidle').dinBlock.trans hdin
end

section
/-! The command sequencer (44_command_sequencer.md R180 to R189): what an issue answers, what a line's step and the
sequencer's step do, and how a run goes on while an operation is in flight and when nothing is left to do. -/

namespace Sys2Proof.Machine

open Sys2Proof

/-! ### The issue (R181 to R184) -/

theorem exec_of_busy {s : State} (h : s.busy = true) (i : Instr) : exec i s = .next s.reject := by
  cases i with
  | schedule => exact congrArg _ (issue_of_busy h _ _)
  | encrypt => exact congrArg _ (issue_of_busy h _ _)
  | decrypt => exact congrArg _ (issue_of_busy h _ _)

@[simp] theorem State.started_lastOp (s : State) (i : Instr) : (s.started i).lastOp = opcode i := by cases i <;> rfl
@[simp] theorem State.started_rejected (s : State) (i : Instr) : (s.started i).rejected = s.rejected := by cases i <;> rfl
@[simp] theorem State.started_done (s : State) (i : Instr) : (s.started i).done = false := by cases i <;> rfl
@[simp] theorem State.started_err (s : State) (i : Instr) : (s.started i).err = false := by cases i <;> rfl

theorem started_phase_ne_idle (s : State) (i : Instr) : (s.started i).phase ≠ .idle := by
  cases i <;> simp [State.started]

/-- A word issued while not BUSY fails, or starts the command whose OP it has. -/
theorem issueWord_of_idle {s : State} (h : s.busy = false) (w : BusWord) :
    (∃ code, issueWord w s = .next ((s.issueEffects (opField w)).raiseError code)) ∨
    (∃ i, opField w = opcode i ∧ issueWord w s = .next (s.started i)) := by
  cases hd : decode w with
  | error e => exact .inl ⟨_, issueWord_of_decode_error hd h⟩
  | ok i =>
    have hop := opField_of_decode hd
    rw [issueWord, hd, hop]
    rcases exec_cases i s with ⟨-, hb⟩ | ⟨code, e, -⟩ | ⟨rfl, e, -⟩ | ⟨rfl, e, -⟩ | ⟨rfl, e, -⟩
    · simp [h] at hb
    · exact .inl ⟨code, e⟩
    · exact .inr ⟨_, rfl, e⟩
    · exact .inr ⟨_, rfl, e⟩
    · exact .inr ⟨_, rfl, e⟩

/-! ### A line's step (R180) -/

theorem busEffect_write_cmd (w : BusWord) (s : State) : busEffect (.memWrite 0x00C#9 w) s = issueWord w s :=
  busEffect_memWrite rfl rfl w

theorem respond_write_cmd (w : BusWord) (s : State) : s.respond (.memWrite 0x00C#9 w) = .okWrite := rfl

/-- The step of a line that writes a command's word to CMD issues the command. -/
theorem step_of_command_line {s : State} {m : Nat} {w : BusWord} {i : Instr} (hturn : s.nextTurn = some (.host m))
    (hline : s.nextLine m = some (.wr 0x00C#9 w)) (hr : s.rstN = true) (hd : decode w = .ok i) :
    step s = mapNext (State.answer m (.wr 0x00C#9 w) .okWrite) (exec i s.popTurn) := by
  obtain ⟨u, hu, hstep⟩ := step_of_nextLine hturn hline hr
  have hexec : exec i s.popTurn = .next u := by
    rw [← hu, lineTxn, busEffect_write_cmd, issueWord, hd]
  rw [hstep, hexec, lineTxn, respond_write_cmd, mapNext]

/-- A write answered OK leaves the script and keeps the master's flag. -/
theorem Master.answered_wr_okWrite (off : Offset) (v : BusWord) (h : Master) :
    h.answered (.wr off v) .okWrite = { h with script := h.script.tail, last := some .okWrite } := by
  simp [answered, lineRepeats, lineAccepts]

/-! ### The sequencer's step (R185) -/

theorem step_of_sequencer {s : State} (hturn : s.nextTurn = some .sequencer) (hr : s.rstN = true) :
    step s = .next s.popTurn.complete := by
  rw [step_of_turn hturn, takeTurn, sequencerTurn, State.popTurn_rstN, if_pos hr]

/-- S[0 .. 2R+3] after SCHEDULE's completion. -/
theorem take_S_completeSchedule (s : State) :
    s.completeSchedule.S.take (tableLen s.snapR.toNat) = s.scheduledTable.map store :=
  List.take_left' (by rw [List.length_map, length_scheduledTable])

/-! ### Nobody's turn left (R187, R189) -/

theorem nextTurn_of_inFlight {s : State} (ht : s.turns = []) (hr : s.rstN = true) (hb : s.busy = true) :
    s.nextTurn = some .sequencer := by
  simp [State.nextTurn, ht, hr, hb]

theorem popTurn_of_no_turns {s : State} (ht : s.turns = []) : s.popTurn = s := by
  cases s
  cases ht
  rfl

theorem readyMaster_eq_none {hs : List Master} (h : hs.all (fun h => h.script.isEmpty) = true) :
    readyMaster hs = none := by
  induction hs with
  | nil => rfl
  | cons g hs ih =>
    obtain ⟨hg, hrest⟩ := Bool.and_eq_true_iff.1 h
    rw [readyMaster, if_pos hg, ih hrest]
    rfl

theorem nextTurn_of_runOver {s : State} (ht : s.turns = []) (h : runOver s = true) : s.nextTurn = none := by
  obtain ⟨hscripts, hidle⟩ := Bool.and_eq_true_iff.1 h
  rw [Bool.not_eq_true'] at hidle
  simp [State.nextTurn, ht, hidle, readyMaster_eq_none hscripts]

/-! ### An operation in flight (R186, R187) -/

/-- A turn other than reset, while an operation is in flight, completes it or leaves it in flight. -/
theorem step_of_inFlight {s : State} {turn : Turn} {rest : List Turn} (hturns : s.turns = turn :: rest)
    (hr : s.rstN = true) (hp : s.phase ≠ .idle) (hreset : turn ≠ .resetLow) :
    ∃ t, step s = .next t ∧
      (t.phase = .idle ∧ t.done = true ∨ t.phase = s.phase ∧ t.rstN = true ∧ t.turns = rest) := by
  have hturn : s.nextTurn = some turn := by simp [State.nextTurn, hturns]
  have hrest : s.popTurn.turns = rest := by simp [hturns]
  have hbusy : s.popTurn.busy = true := (busy_eq_true s).2 hp
  cases turn with
  | host m =>
    rcases hostTurn_cases m s.popTurn with ⟨-, e⟩ | ⟨line, -, hlow, -⟩ | ⟨line, hline, -, -⟩
    · exact ⟨_, (step_of_turn hturn).trans e, .inr ⟨rfl, hr, hrest⟩⟩
    · cases hr.symm.trans hlow
    · obtain ⟨u, hu, hstep⟩ := step_of_nextLine hturn hline hr
      obtain ⟨-, hrstN, -, hturns'⟩ := busEffect_surroundings hu
      exact ⟨_, hstep, .inr ⟨(busEffect_keepsOperation hbusy hu).phase, hrstN.trans hr, hturns'.trans hrest⟩⟩
  | sequencer =>
    exact ⟨_, step_of_sequencer hturn hr, .inl ⟨(busy_eq_false _).1 (complete_busy _), complete_done hp⟩⟩
  | resetLow => exact absurd rfl hreset
  | resetHigh => exact ⟨_, step_of_turn hturn, .inr ⟨rfl, rfl, hrest⟩⟩

theorem run_succ_of_step {s t : State} (h : step s = .next t) (k : Nat) :
    core.run (k + 1) s = core.run k t := by
  have hcore : core.step s = .next t := h
  simp only [Host.Core.run, hcore]

/-- By induction on the turns: each of them that is no reset completes the operation or leaves it to the rest, and with none
left the sequencer moves. -/
theorem run_completes_inFlight (turns : List Turn) {s : State} (hturns : s.turns = turns) (hr : s.rstN = true)
    (hp : s.phase ≠ .idle) (hreset : ∀ x ∈ turns, x ≠ .resetLow) :
    ∃ k t, k ≤ turns.length + 1 ∧ core.run k s = .next t ∧ t.phase = .idle ∧ t.done = true := by
  induction turns generalizing s with
  | nil =>
    have hturn := nextTurn_of_inFlight hturns hr ((busy_eq_true s).2 hp)
    exact ⟨1, _, le_rfl, run_succ_of_step (step_of_sequencer hturn hr) 0, (busy_eq_false _).1 (complete_busy _),
      complete_done hp⟩
  | cons turn rest ih =>
    obtain ⟨hturn, hrest⟩ := List.forall_mem_cons.1 hreset
    obtain ⟨t, ht, ⟨hidle, hdone⟩ | ⟨hphase, hr', hturns'⟩⟩ := step_of_inFlight hturns hr hp hturn
    · exact ⟨1, t, by simp, run_succ_of_step ht 0, hidle, hdone⟩
    · obtain ⟨k, u, hk, hu, hend⟩ := ih hturns' hr' (hphase ▸ hp) hrest
      exact ⟨k + 1, u, Nat.succ_le_succ hk, (run_succ_of_step ht k).trans hu, hend⟩

end Sys2Proof.Machine

open Sys2Proof Sys2Proof.Machine

/-- Settles O4: the line's step is known, and the transaction of a CMD write is the issue of its word. -/
theorem stepRunsTheDecodedCommand : Obligations.StepRunsTheDecodedCommand := by
  refine ⟨fun s m h w rest i hturn hr hm hs hd => ?_, fun s m h line rest hturn hr hm hs => ?_,
    fun _ _ => ⟨rfl, rfl⟩, fun _ _ _ _ => ⟨rfl, rfl, rfl, rfl⟩, fun _ => rfl, busEffect_write_cmd⟩
  · refine ⟨step_of_command_line hturn (nextLine_of_script hm hs) hr hd, fun t => ?_⟩
    rw [State.answer_masters, funext (Master.answered_wr_okWrite _ w)]
  · exact step_of_nextLine hturn (nextLine_of_script hm hs) hr

/-- Settles O5: every issue tests BUSY first. -/
theorem busyIssueIsRejected : Obligations.BusyIssueIsRejected :=
  fun _ hb => ⟨issueWord_of_busy hb, exec_of_busy hb⟩

/-- Settles O6: an issue while not BUSY fails or starts; a rejected one leaves the operation to its completion. -/
theorem issueIsSynchronous : Obligations.IssueIsSynchronous := by
  refine fun w s => ⟨fun hidle => ?_, fun hbusy => ?_⟩
  · rcases issueWord_of_idle hidle w with ⟨code, e⟩ | ⟨i, hop, e⟩
    · have hcomplete := complete_idle (s := (s.issueEffects (opField w)).raiseError code) ((busy_eq_false s).1 hidle)
      exact ⟨_, e, rfl, rfl, .inl ⟨rfl, hidle, rfl, hcomplete⟩⟩
    · have hp := started_phase_ne_idle s i
      exact ⟨_, e, (s.started_lastOp i).trans hop.symm, s.started_rejected i, .inr ⟨s.started_err i, (busy_eq_true _).2 hp,
        s.started_done i, (complete_err _).trans (s.started_err i), complete_busy _, complete_done hp⟩⟩
  · exact ⟨_, issueWord_of_busy hbusy w, rfl, rfl, hbusy, complete_rejected _, complete_busy _,
      complete_done (t := s.reject) ((busy_eq_true s).1 hbusy)⟩

/-- Settles O7: the start written out; the key packed has c Words, and the block captured is the bytes of DINBUF. -/
theorem passingCommandsStart : Obligations.PassingCommandsStart := by
  refine fun s hidle => ⟨fun hb hmax hR => ?_, fun hkey => ?_⟩
  · have hlen : ((s.packKey s.keylen.toNat).map store).length = s.build.keyWords s.keylen.toNat := by simp
    rw [exec_schedule_of_legal hidle hb hmax hR, ← hlen]
    rfl
  · rw [← dinBlock_eq]
    exact ⟨exec_block_of_keyValid (.inl rfl) hidle hkey, exec_block_of_keyValid (.inr rfl) hidle hkey⟩

/-- Settles O13: the sequencer's step is the completion, case by case in the phase. -/
theorem completionIsOneStep : Obligations.CompletionIsOneStep := by
  intro s hturn hr
  have hstep := step_of_sequencer hturn hr
  refine ⟨fun hp => ?_, fun hp => ?_, fun hp => ?_, fun hp => ?_, fun hp => ?_⟩
  · rw [hstep, complete_idle (s := s.popTurn) hp]
  · exact ⟨_, hstep, (busy_eq_false _).1 (complete_busy _), complete_done hp⟩
  · rw [complete_sched (s := s.popTurn) hp] at hstep
    exact ⟨_, hstep, rfl, rfl, rfl, rfl, take_S_completeSchedule s.popTurn⟩
  · rw [complete_enc (s := s.popTurn) hp] at hstep
    exact ⟨_, hstep, rfl, rfl⟩
  · rw [complete_dec (s := s.popTurn) hp] at hstep
    exact ⟨_, hstep, rfl, rfl⟩

/-- Settles O47: by induction on the turns. -/
theorem inFlightOperationCompletes : Obligations.InFlightOperationCompletes :=
  fun s hr hp hreset => run_completes_inFlight s.turns rfl hr hp hreset

/-- Settles O48: the SCHEDULE in flight makes the core BUSY, and its completion sets KEY_VALID. -/
theorem placementDecidesRejection : Obligations.PlacementDecidesRejection := by
  intro s hidle hb hmax hR
  have hbefore := complete_sched (s := (s.started .schedule).reject) rfl
  have hafter := complete_sched (s := s.started .schedule) rfl
  refine ⟨_, exec_schedule_of_legal hidle hb hmax hR, ⟨_, exec_of_busy rfl .encrypt, rfl, rfl, rfl, ?_⟩,
    ⟨_, exec_block_of_keyValid (.inl rfl) (complete_busy _) ?_, ?_⟩⟩
  · rw [hbefore]
    exact ⟨rfl, rfl, rfl⟩
  · rw [hafter]
    rfl
  · rw [hafter]
    exact ⟨rfl, rfl, rfl⟩

/-- Settles O57: with no turn left nobody moves when the run is over, and the sequencer moves while an operation is in
flight. -/
theorem endOfRun : Obligations.EndOfRun := by
  refine fun s ht => ⟨fun hover => ?_, fun hr hb => ⟨?_, complete_busy s⟩⟩
  · rcases step_cases s with ⟨-, hstep⟩ | ⟨turn, hturn, -⟩
    · exact hstep
    · cases (nextTurn_of_runOver ht hover).symm.trans hturn
  · rw [step_of_sequencer (nextTurn_of_inFlight ht hr hb) hr, popTurn_of_no_turns ht]
end

section
/-! How a command fails (60_exceptions.md R201 to R210): which code each failing issue raises, and that a failure changes
nothing but DONE, ERR, ERRCODE and LAST_OP. -/

namespace Sys2Proof.Machine

open Sys2Proof

/-! ### Words that are ILLEGAL (R207) -/

/-- A command's word has RSV = 0 and OP 1, 2 or 3 (30_encoding.md R90, R91). -/
theorem encode_fields (i : Instr) : rsvField (encode i) = 0#28 ∧
    (opField (encode i) = 0x1#4 ∨ opField (encode i) = 0x2#4 ∨ opField (encode i) = 0x3#4) := by
  cases i <;> decide

/-- A word with RSV not 0, or with OP not 1, 2 or 3, is ILLEGAL (30_encoding.md R92). -/
theorem decode_error_of_fields {w : BusWord}
    (h : rsvField w ≠ 0#28 ∨ (opField w ≠ 0x1#4 ∧ opField w ≠ 0x2#4 ∧ opField w ≠ 0x3#4)) :
    ∃ e, decode w = .error e := by
  refine decode_error_of_ne_encode fun i hw => ?_
  subst hw
  obtain ⟨hrsv, hop⟩ := encode_fields i
  rcases h with hne | ⟨h1, h2, h3⟩
  · exact hne hrsv
  · rcases hop with hop | hop | hop
    · exact h1 hop
    · exact h2 hop
    · exact h3 hop

/-! ### SCHEDULE's checks, in their order (R201, R202, R206, R208) -/

section
variable {s : State}

theorem schedulePart_of_no_keylen (h0 : s.keylen.toNat = 0) : s.schedulePart = s.raiseError .invalidKey :=
  if_pos h0

theorem schedulePart_of_key_too_long (hlong : s.keylen.toNat > s.build.bMax) :
    s.schedulePart = s.raiseError .keyTooLong := by
  have h0 : s.keylen.toNat ≠ 0 := Nat.ne_zero_of_lt hlong
  rw [State.schedulePart, if_neg h0, if_pos hlong]

theorem schedulePart_of_too_many_rounds (hb : 1 ≤ s.keylen.toNat) (hmax : s.keylen.toNat ≤ s.build.bMax)
    (hR : s.rounds.toNat > s.build.rMax.toNat) : s.schedulePart = s.raiseError .invalidRounds := by
  rw [State.schedulePart, if_neg (Nat.ne_of_gt hb), if_neg (Nat.not_lt.2 hmax), if_pos hR]

/-- A SCHEDULE issued while not BUSY: the common effects, then its checks. -/
theorem exec_schedule_of_idle (hidle : s.busy = false) :
    exec .schedule s = .next (s.issueEffects 0x1#4).schedulePart :=
  congrArg _ (issue_of_idle hidle _ _)

/-- A block command issued without a context fails with NoKey (R206). -/
theorem exec_block_of_no_context {i : Instr} (hi : i = .encrypt ∨ i = .decrypt) (hidle : s.busy = false)
    (hkey : s.keyValid = false) : exec i s = .next ((s.issueEffects (opcode i)).raiseError .noKey) := by
  rcases exec_block_cases hi hidle with ⟨-, hexec⟩ | ⟨hvalid, -⟩
  · exact hexec
  · cases hkey.symm.trans hvalid

/-! ### Any failure (R210) -/

/-- An issue that sets ERR while not BUSY is the common effects and one error, with a code that is not NONE. -/
theorem issueWord_of_err {w : BusWord} {t : State} (hidle : s.busy = false) (h : issueWord w s = .next t)
    (herr : t.err = true) : ∃ code, code ≠ .none ∧ t = (s.issueEffects (opField w)).raiseError code := by
  rcases issueWord_cases w s with ⟨-, hb⟩ | ⟨code, e, -, hcode⟩ | ⟨e, -⟩ | ⟨e, -⟩ | ⟨e, -⟩
  · cases hidle.symm.trans hb
  · refine ⟨code, ?_, Host.Outcome.next.inj (h.symm.trans e)⟩
    rcases hcode with rfl | rfl | rfl | rfl | rfl <;> decide
  all_goals
    obtain rfl := Host.Outcome.next.inj (e.symm.trans h)
    cases herr

end

end Sys2Proof.Machine

open Sys2Proof Sys2Proof.Machine

/-- Settles O10: an issue that sets ERR is the common effects and `raiseError`, which write these four fields. -/
theorem failureIsPrecise : Obligations.FailureIsPrecise := by
  intro w s t hidle h herr
  obtain ⟨code, hcode, rfl⟩ := issueWord_of_err hidle h herr
  exact ⟨rfl, hcode⟩

/-- Settles O8: each failing check of the issue parts, in its order. -/
theorem failingCommandsReport : Obligations.FailingCommandsReport := by
  refine fun s hidle => ⟨fun h0 => ?_, fun hlong => ?_, fun hb hmax hR => ?_, fun hkey => ⟨?_, ?_⟩⟩
  · exact (exec_schedule_of_idle hidle).trans (congrArg _ (schedulePart_of_no_keylen h0))
  · exact (exec_schedule_of_idle hidle).trans (congrArg _ (schedulePart_of_key_too_long hlong))
  · exact (exec_schedule_of_idle hidle).trans (congrArg _ (schedulePart_of_too_many_rounds hb hmax hR))
  · exact exec_block_of_no_context (.inl rfl) hidle hkey
  · exact exec_block_of_no_context (.inr rfl) hidle hkey

/-- Settles O9: the word decodes to an error, so its issue fails with IllegalCommand. -/
theorem illegalWordsFail : Obligations.IllegalWordsFail := by
  intro w s hidle hfields
  obtain ⟨e, he⟩ := decode_error_of_fields hfields
  rw [busEffect_write_cmd, issueWord_of_decode_error he hidle]
  rfl
end

section
/-! The interrupt output and the flags behind it (60_exceptions.md R211, R212): what raises `irq`, and what clears a flag. -/

namespace Sys2Proof.Machine

open Sys2Proof

/-- The three sources of the interrupt (R211). -/
theorem irq_eq_true_iff (s : State) : s.irq = true ↔
    (s.done = true ∧ s.doneIe = true) ∨ (s.err = true ∧ s.errIe = true) ∨ (s.rejected = true ∧ s.rejIe = true) := by
  simp [State.irq, or_assoc]

/-! ### A CMD write while BUSY = 0 (R212) -/

/-- DONE, ERR and ERRCODE as they are when no command has ended. -/
def State.clearEnded (s : State) : State := { s with done := false, err := false, errcode := .none }

section
variable {s : State} (hidle : s.busy = false)
include hidle

/-- An issue clears DONE, ERR and ERRCODE itself, so it does not depend on what they were. -/
theorem issue_clearEnded (op : BitVec 4) (part : State → State) : s.clearEnded.issue op part = s.issue op part := by
  have hcleared : s.clearEnded.busy = false := hidle
  rw [issue_of_idle hidle, issue_of_idle hcleared]
  rfl

theorem exec_clearEnded (i : Instr) : exec i s.clearEnded = exec i s := by
  cases i with
  | schedule => exact congrArg Host.Outcome.next (issue_clearEnded hidle _ _)
  | encrypt => exact congrArg Host.Outcome.next (issue_clearEnded hidle _ _)
  | decrypt => exact congrArg Host.Outcome.next (issue_clearEnded hidle _ _)

theorem issueWord_clearEnded (w : BusWord) : issueWord w s.clearEnded = issueWord w s := by
  unfold issueWord
  cases decode w with
  | ok i => exact exec_clearEnded hidle i
  | error e => exact congrArg Host.Outcome.next (issue_clearEnded hidle _ _)

end

/-- An issue while not BUSY leaves DONE = 0 and REJECTED as it was; if it sets ERR, it records OP and starts nothing. -/
theorem issueWord_flags {w : BusWord} {s t : State} (hidle : s.busy = false) (h : issueWord w s = .next t) :
    t.done = false ∧ (t.err = true → t.lastOp = opField w ∧ t.phase = .idle) ∧ t.rejected = s.rejected := by
  rcases issueWord_of_idle hidle w with ⟨code, e⟩ | ⟨i, -, e⟩ <;> obtain rfl := Host.Outcome.next.inj (e.symm.trans h)
  · exact ⟨rfl, fun _ => ⟨rfl, (busy_eq_false s).1 hidle⟩, rfl⟩
  · refine ⟨s.started_done i, fun herr => ?_, s.started_rejected i⟩
    cases (s.started_err i).symm.trans herr

/-! ### What lowers REJECTED (R212) -/

/-- No issue lowers REJECTED: a rejected one sets it and any other leaves it. -/
theorem issueWord_keeps_rejected {w : BusWord} {s t : State} (h : issueWord w s = .next t) (hs : s.rejected = true) :
    t.rejected = true := by
  cases hb : s.busy with
  | true =>
    obtain rfl := Host.Outcome.next.inj ((issueWord_of_busy hb w).symm.trans h)
    rfl
  | false =>
    obtain ⟨-, -, hrej⟩ := issueWord_flags hb h
    exact hrej.trans hs

/-- A transaction that lowers REJECTED is a STATUS write with bit 8 set. -/
theorem status_write_of_rejected_falls {x : Txn} {s u : State} (h : busEffect x s = .next u) (hs : s.rejected = true)
    (hu : u.rejected = false) : ∃ v, x = .memWrite 0x010#9 v ∧ v.getLsbD 8 = true := by
  rcases busEffect_cases h with rfl | ⟨a, v, rfl, rfl | ⟨rfl, rfl⟩ | rfl | ⟨-, hi⟩ | ⟨k, -, rfl⟩ | ⟨k, -, rfl⟩⟩
  case inr.inr.inl => exact ⟨v, rfl, by simpa [hs] using hu⟩
  case inr.inr.inr.inr.inl => cases hu.symm.trans (issueWord_keeps_rejected hi hs)
  all_goals cases hs.symm.trans hu

/-- A step that lowers REJECTED is a reset or a master's STATUS write with bit 8 set. -/
theorem step_of_rejected_falls {s t : State} (h : step s = .next t) (hs : s.rejected = true) (ht : t.rejected = false) :
    s.nextTurn = some .resetLow ∨
    ∃ m line v, s.nextTurn = some (.host m) ∧ s.nextLine m = some line ∧ lineTxn line = .memWrite 0x010#9 v ∧
      v.getLsbD 8 = true := by
  rcases step_next_cases h with (rfl | rfl) | ⟨m, line, u, hturn, hline, -, hu, rfl⟩ | ⟨-, -, -, rfl⟩ | ⟨hturn, -⟩ |
    ⟨-, rfl⟩
  case inr.inl =>
    obtain ⟨v, hx, hv⟩ := status_write_of_rejected_falls hu hs ht
    exact .inr ⟨m, line, v, hturn, hline, hx, hv⟩
  case inr.inr.inl => cases hs.symm.trans ((complete_rejected s.popTurn).symm.trans ht)
  case inr.inr.inr.inl => exact .inl hturn
  all_goals cases hs.symm.trans ht

end Sys2Proof.Machine

open Sys2Proof Sys2Proof.Machine

/-- Settles O40: STATUS and IRQ_EN show the flags and the enables at these bits. -/
theorem interruptOutput : Obligations.InterruptOutput := by
  intro s
  obtain ⟨-, -, hdone, herr, hrej⟩ := statusWord_flags s
  obtain ⟨hdoneIe, herrIe, hrejIe, -⟩ := irqEnWord_fields s
  refine ⟨_, _, respond_read_status s, respond_read_irqEn s, ?_⟩
  rw [hdone, herr, hrej, hdoneIe, herrIe, hrejIe]
  exact irq_eq_true_iff s

/-- Settles O41: an IRQ_EN write writes the enables alone, a STATUS write clears, an issue does not depend on the flags it
clears, and REJECTED is followed through every case of a step. -/
theorem interruptFlagsAndClearing : Obligations.InterruptFlagsAndClearing := by
  refine ⟨fun s t v h => ?_, fun s t v h => ?_, fun s t w hidle h => ?_, fun s t => step_of_rejected_falls,
    fun s => (irq_eq_true_iff s).1⟩
  · rw [busEffect_write_irqEn] at h
    obtain rfl := Host.Outcome.next.inj h
    exact ⟨rfl, rfl, rfl, irq_eq_true_iff _⟩
  · rw [busEffect_write_status] at h
    obtain rfl := Host.Outcome.next.inj h
    simp
  · rw [busEffect_write_cmd] at h
    exact ⟨(busEffect_write_cmd w s.clearEnded).trans ((issueWord_clearEnded hidle w).trans h), issueWord_flags hidle h⟩
end

section
/-! Key material is not readable (60_exceptions.md R220; 10_state.md R28, R41): what a transaction answers is a function of
the registers and of the DIN and DOUT windows. A window's bus word lies wholly in the window. -/

namespace Sys2Proof.Machine

open Sys2Proof

/-- Memories that agree on a block window agree on each of its bus words: BLK_BYTES is a multiple of 4, so the word's four
bytes lie in the window (20_memory.md R66). -/
theorem windowWord_congr {b : Build} {m m' : Memory} {base k : Nat}
    (h : ∀ k, k < b.blkBytes → Memory.read m (base + k) = Memory.read m' (base + k)) (hk : k < b.blkBytes)
    (h4 : k % 4 = 0) : Memory.busWord m (base + k) = Memory.busWord m' (base + k) := by
  obtain ⟨-, -, hblk⟩ := blk_bounds b
  have hbyte : ∀ j, j < 4 → Memory.read m (base + k + j) = Memory.read m' (base + k + j) := fun j hj => by
    rw [Nat.add_assoc]
    exact h (k + j) (by omega)
  have h0 : Memory.read m (base + k) = Memory.read m' (base + k) := h k hk
  simp only [Memory.busWord, h0, hbyte 1 (by decide), hbyte 2 (by decide), hbyte 3 (by decide)]

namespace SameToHost

variable {s t : State} (h : SameToHost s t)
include h

theorem statusWord : s.statusWord = t.statusWord := by
  obtain ⟨hdone, herr, hcode, hrej, hop⟩ := h.status
  simp only [State.statusWord, h.busy, h.context.1, hdone, herr, hcode, hrej, hop]

theorem irqEnWord : s.irqEnWord = t.irqEnWord := by
  obtain ⟨hdone, herr, hrej⟩ := h.irqEn
  simp only [State.irqEnWord, hdone, herr, hrej]

theorem ctxWord : s.ctxWord = t.ctxWord := by
  obtain ⟨hkey, hR, hB⟩ := h.context
  simp only [State.ctxWord, hkey, hR, hB]

theorem configWord : s.configWord = t.configWord := by
  obtain ⟨hrounds, hkeylen⟩ := h.config
  simp only [State.configWord, hrounds, hkeylen]

theorem irq : s.irq = t.irq := by
  obtain ⟨hdone, herr, -, hrej, -⟩ := h.status
  obtain ⟨hdoneIe, herrIe, hrejIe⟩ := h.irqEn
  simp only [State.irq, hdone, herr, hrej, hdoneIe, herrIe, hrejIe]

/-- What stands at an aligned offset reads alike; KEY reads as 0 whatever it holds (10_state.md R41). -/
theorem readData {slot : Slot} {a : Nat} (hs : slot.standsAt s.build a) (h4 : a % 4 = 0) :
    s.readData slot = t.readData slot := by
  cases slot with
  | id => rfl
  | param => exact congrArg (some <| paramWord ·) h.build
  | config => exact congrArg some h.configWord
  | cmd => rfl
  | status => exact congrArg some h.statusWord
  | irqEn => exact congrArg some h.irqEnWord
  | ctx => exact congrArg some h.ctxWord
  | din k =>
    obtain ⟨hk, rfl⟩ := hs
    have hbase : dinBase % 4 = 0 := rfl
    exact congrArg some (windowWord_congr (fun k hk => (h.windows k hk).1) hk (by omega))
  | dout k =>
    obtain ⟨hk, rfl⟩ := hs
    have hbase : doutBase % 4 = 0 := rfl
    exact congrArg some (windowWord_congr (fun k hk => (h.windows k hk).2) hk (by omega))
  | key k => rfl
  | unmapped => rfl

theorem respond (x : Txn) : s.respond x = t.respond x := by
  cases x with
  | read a size =>
    have hdata : s.readData (readSlot s.build a size) = t.readData (readSlot s.build a size) := by
      unfold readSlot
      split_ifs with hread
      · obtain ⟨ha, -⟩ := Bool.and_eq_true_iff.1 hread
        exact h.readData (slotAt_stands _ _) ((aligned_iff a).1 ha)
      · rfl
    simp only [State.respond, ← h.build, hdata]
  | write a strobes v => simp only [State.respond, h.build]

end SameToHost

end Sys2Proof.Machine

open Sys2Proof Sys2Proof.Machine

/-- Settles O42: every answer and the interrupt are functions of what the two states share. -/
theorem keyMaterialIsNeverReadable : Obligations.KeyMaterialIsNeverReadable :=
  fun _ _ h => ⟨h.respond, h.irq⟩
end

section
/-! Reset (70_reset_and_hazards.md R230 to R232): what the windows and the registers hold right after it, the step that
samples each level of the pin, and the one stop, a transaction while the pin is low. -/

namespace Sys2Proof.Machine

open Sys2Proof

/-! ### What reset leaves (R232) -/

theorem irq_resetOf (b : Build) : (State.resetOf b).irq = false := rfl

theorem busWord_nil (a : Nat) : Memory.busWord [] a = 0#32 := by
  simp [Memory.busWord, Memory.unlisted]

/-- A bus word of DIN or DOUT reads as 0 in a build right after reset. -/
theorem respond_resetOf_of_blockWord {b : Build} {a : Offset} {slot : Slot} {k : Nat}
    (h : aligned a = true ∧ slotAt b a.toNat = slot) (hslot : slot = .din k ∨ slot = .dout k) :
    (State.resetOf b).respond (.memRead a) = .okRead 0#32 := by
  obtain ⟨ha, hs⟩ := h
  have hdata : (State.resetOf b).readData slot = some 0#32 := by
    rcases hslot with rfl | rfl <;> exact congrArg some (busWord_nil _)
  exact respond_memRead ha hs hdata

/-! ### The pin's turns, and the sequencer's while the pin is low (R230) -/

theorem step_of_resetLow {s : State} (hturn : s.nextTurn = some .resetLow) : step s = .next s.popTurn.resetLow :=
  step_of_turn hturn

theorem step_of_resetHigh {s : State} (hturn : s.nextTurn = some .resetHigh) : step s = .next s.popTurn.resetHigh :=
  step_of_turn hturn

theorem step_of_sequencer_in_reset {s : State} (hturn : s.nextTurn = some .sequencer) (hr : s.rstN = false) :
    step s = .next s.popTurn := by
  have hlow : ¬ s.popTurn.rstN = true := Bool.eq_false_iff.1 hr
  rw [step_of_turn hturn, takeTurn, sequencerTurn, if_neg hlow]

/-! ### The one stop (R230; 93_implementation_defined.md S1) -/

theorem step_of_line_in_reset {s : State} {m : Nat} {line : Line} (hturn : s.nextTurn = some (.host m))
    (hline : s.nextLine m = some line) (hr : s.rstN = false) : step s = .fault .transactionDuringReset := by
  rw [step_of_turn hturn, takeTurn]
  rcases hostTurn_cases m s.popTurn with ⟨hnone, -⟩ | ⟨_, -, -, hfault⟩ | ⟨_, -, hhigh, -⟩
  · cases hline.symm.trans hnone
  · exact hfault
  · cases hr.symm.trans hhigh

/-- Whoever moves, a step has a next state, but for a master's line while the pin is low. -/
theorem step_next_or_line_in_reset (s : State) : (∃ t, step s = .next t) ∨
    (s.rstN = false ∧ ∃ m line, s.nextTurn = some (.host m) ∧ s.nextLine m = some line) := by
  rcases step_cases s with ⟨-, hstep⟩ | ⟨turn, hturn, hstep⟩
  · exact .inl ⟨_, hstep⟩
  · cases turn with
    | host m =>
      rcases hostTurn_cases m s.popTurn with ⟨-, hhost⟩ | ⟨line, hline, hr, -⟩ | ⟨line, hline, hr, -⟩
      · exact .inl ⟨_, hstep.trans hhost⟩
      · exact .inr ⟨hr, m, line, hturn, hline⟩
      · obtain ⟨u, -, hnext⟩ := step_of_nextLine hturn hline hr
        exact .inl ⟨_, hnext⟩
    | sequencer | resetLow | resetHigh => exact .inl ⟨_, hstep⟩

end Sys2Proof.Machine

open Sys2Proof Sys2Proof.Machine

/-- Settles O50: the step that samples 0 gives the reset values, with draws in S and L; the other two steps are known. -/
theorem resetAbandonsEverything : Obligations.ResetAbandonsEverything := by
  refine ⟨fun s hturn => ⟨_, step_of_resetLow hturn, ?_⟩, fun _ hr hturn => step_of_sequencer_in_reset hturn hr,
    fun _ => step_of_resetHigh⟩
  exact ⟨rfl, rfl, rfl, rfl, statusWord_resetOf s.build, irqEnWord_resetOf s.build, rfl, rfl, Memory.read_nil,
    irq_resetOf s.build, rfl, rfl, length_drawS _ _ _ _, length_drawL _ _, rfl⟩

/-- Settles O51: a step has a next state or is a line performed in reset, and that step faults. -/
theorem onlyResetStopsTransactions : Obligations.OnlyResetStopsTransactions := by
  intro s
  rcases step_next_or_line_in_reset s with ⟨t, hnext⟩ | ⟨hr, m, line, hturn, hline⟩
  · refine ⟨fun r h => ?_, ⟨fun ⟨f, h⟩ => ?_, fun ⟨hr, m, line, hturn, hline⟩ => ?_⟩, fun _ => ⟨t, hnext⟩⟩
    · cases hnext.symm.trans h
    · cases hnext.symm.trans h
    · cases hnext.symm.trans (step_of_line_in_reset hturn hline hr)
  · have hfault := step_of_line_in_reset hturn hline hr
    refine ⟨fun r h => ?_, ⟨fun _ => ⟨hr, m, line, hturn, hline⟩, fun _ => ⟨_, hfault⟩⟩, fun hhigh => ?_⟩
    · cases hfault.symm.trans h
    · cases hr.symm.trans hhigh

/-- Settles O49: the registers read as their reset words, and the windows hold no byte but 0x00. -/
theorem stateAfterReset : Obligations.StateAfterReset := by
  refine fun b => ⟨rfl, rfl, ?_, ?_, irq_resetOf b, ?_, fun n hn => ⟨?_, ?_⟩, fun _ => Memory.read_nil _⟩
  · rw [respond_read_status, statusWord_resetOf]
  · rw [respond_read_irqEn, irqEnWord_resetOf]
  · rw [respond_read_ctx, ctxWord_of_no_context rfl]
  · exact respond_resetOf_of_blockWord (dinWord_slot (s := State.resetOf b) hn) (.inl rfl)
  · exact respond_resetOf_of_blockWord (doutWord_slot (s := State.resetOf b) hn) (.inr rfl)
end
